-- ==== Sys2Proof/Word.lean ====
section
/-! DEFINITION. The widths of the block's values (00_scope.md rules R7 to R11, R13). Every value is unsigned. -/

namespace Sys2Proof

/-- One byte of buffer memory, and the data of a peripheral command. -/
abbrev Byte := BitVec 8

/-- A device handle: an 8-bit slot index (R27). -/
abbrev Handle := BitVec 8

/-- A buffer address, a byte count or cursor, a timer count (R7, R8, R9). -/
abbrev Half := BitVec 16

/-- A command word or a response word (R81, R85). -/
abbrev Word := BitVec 64

end Sys2Proof
end

