-- ==== Sys2Proof/Syntax.lean ====
section
/-! DEFINITION. The host commands (30_encoding.md rules R82 to R84, R98) and the assembler's commands (R107, R108). -/

namespace Sys2Proof

/-- A host command with its operands (R84), one constructor per row of the opcode table. -/
inductive Instr where
  | nop
  | register (addr7 : BitVec 7) (wbase rbase : Half)
  | beginTransfer (dev : Handle) (rs : Bool) (nsend nread : Half)
  | queue (dev : Handle) (rs : Bool) (nsend nread : Half)
  | poll
  | isFinished (dev : Handle)
  | getCounts (dev : Handle)
  | isBusIdle
  | ackResult (dev : Handle)
  | writePeriod (period : Half)
  | readStatus
  | readTimer
  /-- The reserved opcodes 0xC to 0xF, as one class (R98); `op` is the OP field as written. -/
  | reserved (op : BitVec 4)
deriving DecidableEq, Repr

/-- One line of assembler (R107) or pseudo-command (R108), its numbers as the programmer wrote them. -/
inductive Asm where
  | nop
  | register (addr7 wbase rbase : Nat)
  | beginTransfer (dev nsend nread : Nat) (rs : Bool)
  | queue (dev nsend nread : Nat) (rs : Bool)
  | poll
  | isFinished (dev : Nat)
  | getCounts (dev : Nat)
  | isBusIdle
  | ackResult (dev : Nat)
  | writePeriod (period : Nat)
  | readStatus
  | readTimer
  | probe (dev : Nat)
  | write (dev n : Nat)
  | writeRs (dev n : Nat)
  | read (dev m : Nat)
  | qwrite (dev n : Nat)
  | qread (dev m : Nat)
deriving DecidableEq, Repr

/-- What one line of assembler text is: empty or only a comment, a command, or text the assembler refuses (R107). -/
inductive AsmLine where
  | blank
  | command (a : Asm)
  | refused
deriving DecidableEq, Repr

end Sys2Proof
end

