-- ==== Sys2Proof/WellFormed.lean ====
section
/-! DEFINITION. Which commands are well formed (30_encoding.md rules R98, R105 and R107). -/

namespace Sys2Proof

/-- The types fix every operand's width, so the one check is the reserved class's: its OP is 0xC, 0xD, 0xE or 0xF (R98). -/
def Instr.wf : Instr → Bool
  | .nop => true
  | .register _ _ _ => true
  | .beginTransfer _ _ _ _ => true
  | .queue _ _ _ _ => true
  | .poll => true
  | .isFinished _ => true
  | .getCounts _ => true
  | .isBusIdle => true
  | .ackResult _ => true
  | .writePeriod _ => true
  | .readStatus => true
  | .readTimer => true
  | .reserved op => decide (12 ≤ op.toNat)

/-- "An assembler refuses an operand that does not fit its field: ADDR7 > 0x7F, DEV > 0xFF, or a count, base or
period > 0xFFFF" (R107). A pseudo-command's operands are those of its expansion (R108). -/
def Asm.wf : Asm → Bool
  | .nop => true
  | .register addr7 wbase rbase => decide (addr7 ≤ 0x7F) && decide (wbase ≤ 0xFFFF) && decide (rbase ≤ 0xFFFF)
  | .beginTransfer dev nsend nread _ => decide (dev ≤ 0xFF) && decide (nsend ≤ 0xFFFF) && decide (nread ≤ 0xFFFF)
  | .queue dev nsend nread _ => decide (dev ≤ 0xFF) && decide (nsend ≤ 0xFFFF) && decide (nread ≤ 0xFFFF)
  | .poll => true
  | .isFinished dev => decide (dev ≤ 0xFF)
  | .getCounts dev => decide (dev ≤ 0xFF)
  | .isBusIdle => true
  | .ackResult dev => decide (dev ≤ 0xFF)
  | .writePeriod period => decide (period ≤ 0xFFFF)
  | .readStatus => true
  | .readTimer => true
  | .probe dev => decide (dev ≤ 0xFF)
  | .write dev n => decide (dev ≤ 0xFF) && decide (n ≤ 0xFFFF)
  | .writeRs dev n => decide (dev ≤ 0xFF) && decide (n ≤ 0xFFFF)
  | .read dev m => decide (dev ≤ 0xFF) && decide (m ≤ 0xFFFF)
  | .qwrite dev n => decide (dev ≤ 0xFF) && decide (n ≤ 0xFFFF)
  | .qread dev m => decide (dev ≤ 0xFF) && decide (m ≤ 0xFFFF)

end Sys2Proof
end

