-- ==== Sys2Proof/Decode.lean ====
section
/-! DEFINITION. Decoding a command word, encoding a command, and the assembler (30_encoding.md rules R81 to R84, R97,
R98, R105 to R110). -/

namespace Sys2Proof

/-- `w[hi:lo]` with `n = hi - lo + 1` (R13). -/
def field (w : Word) (lo n : Nat) : BitVec n := w.extractLsb' lo n

/-- `OP = CMD[63:60]` (R81). -/
def opField (w : Word) : BitVec 4 := field w 60 4

/-- `DEV = CMD[59:52]`, formats T and D (R82). -/
def devField (w : Word) : Handle := field w 52 8

/-- `ADDR7 = CMD[58:52]`, format R (R82). -/
def addr7Field (w : Word) : BitVec 7 := field w 52 7

/-- `RS = CMD[48]`, format T (R82). -/
def rsField (w : Word) : Bool := w.getLsbD 48

/-- `CMD[31:16]`: WBASE in format R, NSEND in format T (R82). -/
def upperField (w : Word) : Half := field w 16 16

/-- `CMD[15:0]`: RBASE in format R, NREAD in format T, PERIOD in format P (R82). -/
def lowerField (w : Word) : Half := field w 0 16

/-- The decoder: total, and the command depends on OP alone (R84, R105). Reserved bits are not looked at (R97). -/
def decode (w : Word) : Instr :=
  match (opField w).toNat with
  | 0x0 => .nop
  | 0x1 => .register (addr7Field w) (upperField w) (lowerField w)
  | 0x2 => .beginTransfer (devField w) (rsField w) (upperField w) (lowerField w)
  | 0x3 => .queue (devField w) (rsField w) (upperField w) (lowerField w)
  | 0x4 => .poll
  | 0x5 => .isFinished (devField w)
  | 0x6 => .getCounts (devField w)
  | 0x7 => .isBusIdle
  | 0x8 => .ackResult (devField w)
  | 0x9 => .writePeriod (lowerField w)
  | 0xA => .readStatus
  | 0xB => .readTimer
  | _ => .reserved (opField w)

/-- Format N (R82). -/
def formatN (op : BitVec 4) : Word := op ++ 0#60

/-- Format R (R82). -/
def formatR (op : BitVec 4) (addr7 : BitVec 7) (wbase rbase : Half) : Word :=
  op ++ (0#1 ++ (addr7 ++ (0#20 ++ (wbase ++ rbase))))

/-- Format T (R82). -/
def formatT (op : BitVec 4) (dev : Handle) (rs : Bool) (nsend nread : Half) : Word :=
  op ++ (dev ++ (0#3 ++ (BitVec.ofBool rs ++ (0#16 ++ (nsend ++ nread)))))

/-- Format D (R82). -/
def formatD (op : BitVec 4) (dev : Handle) : Word := op ++ (dev ++ 0#52)

/-- Format P (R82). -/
def formatP (op : BitVec 4) (period : Half) : Word := op ++ (0#44 ++ period)

/-- The opcode of a command (R84, R98). -/
def Instr.op : Instr → BitVec 4
  | .nop => 0x0
  | .register _ _ _ => 0x1
  | .beginTransfer _ _ _ _ => 0x2
  | .queue _ _ _ _ => 0x3
  | .poll => 0x4
  | .isFinished _ => 0x5
  | .getCounts _ => 0x6
  | .isBusIdle => 0x7
  | .ackResult _ => 0x8
  | .writePeriod _ => 0x9
  | .readStatus => 0xA
  | .readTimer => 0xB
  | .reserved op => op

/-- The encoder (R82, R84), with every reserved bit 0, as R97 asks of software. -/
def encode : Instr → Word
  | .nop => formatN 0x0
  | .register addr7 wbase rbase => formatR 0x1 addr7 wbase rbase
  | .beginTransfer dev rs nsend nread => formatT 0x2 dev rs nsend nread
  | .queue dev rs nsend nread => formatT 0x3 dev rs nsend nread
  | .poll => formatN 0x4
  | .isFinished dev => formatD 0x5 dev
  | .getCounts dev => formatD 0x6 dev
  | .isBusIdle => formatN 0x7
  | .ackResult dev => formatD 0x8 dev
  | .writePeriod period => formatP 0x9 period
  | .readStatus => formatN 0xA
  | .readTimer => formatN 0xB
  | .reserved op => formatN op

/-- Why a bit string is no command word. Every 64-bit word is one (R105). -/
inductive DecodeError where
  /-- "There is one length" (R81): more than 64 bits were given. -/
  | tooLong (nbits : Nat)
deriving DecidableEq, Repr

/-- The decoder on a number of `nbits` bits, the bits above them being 0 (R81, R105). -/
def decodeBits (nbits w : Nat) : Except DecodeError Instr :=
  if nbits ≤ 64 then .ok (decode (BitVec.ofNat 64 (w % 2 ^ nbits))) else .error (.tooLong nbits)

/-- What the decoder reads from an opcode-table word. A command word is a parallel word, not bytes in memory (R68). -/
def decodeTableWord (nbits w : Nat) : Option Instr :=
  match decodeBits nbits w with
  | .ok i => some i
  | .error _ => none

/-! ## The assembler -/

/-- The expansion of a pseudo-command (R108). A command stands for itself. -/
def Asm.expand : Asm → Asm
  | .nop => .nop
  | .register addr7 wbase rbase => .register addr7 wbase rbase
  | .beginTransfer dev nsend nread rs => .beginTransfer dev nsend nread rs
  | .queue dev nsend nread rs => .queue dev nsend nread rs
  | .poll => .poll
  | .isFinished dev => .isFinished dev
  | .getCounts dev => .getCounts dev
  | .isBusIdle => .isBusIdle
  | .ackResult dev => .ackResult dev
  | .writePeriod period => .writePeriod period
  | .readStatus => .readStatus
  | .readTimer => .readTimer
  | .probe dev => .beginTransfer dev 0 0 false
  | .write dev n => .beginTransfer dev n 0 false
  | .writeRs dev n => .beginTransfer dev n 0 true
  | .read dev m => .beginTransfer dev 0 m false
  | .qwrite dev n => .queue dev n 0 false
  | .qread dev m => .queue dev 0 m false

/-- The command a well-formed line stands for (R107, R108). -/
def Asm.toInstr : Asm → Instr
  | .nop => .nop
  | .register addr7 wbase rbase => .register (BitVec.ofNat 7 addr7) (BitVec.ofNat 16 wbase) (BitVec.ofNat 16 rbase)
  | .beginTransfer dev nsend nread rs =>
    .beginTransfer (BitVec.ofNat 8 dev) rs (BitVec.ofNat 16 nsend) (BitVec.ofNat 16 nread)
  | .queue dev nsend nread rs => .queue (BitVec.ofNat 8 dev) rs (BitVec.ofNat 16 nsend) (BitVec.ofNat 16 nread)
  | .poll => .poll
  | .isFinished dev => .isFinished (BitVec.ofNat 8 dev)
  | .getCounts dev => .getCounts (BitVec.ofNat 8 dev)
  | .isBusIdle => .isBusIdle
  | .ackResult dev => .ackResult (BitVec.ofNat 8 dev)
  | .writePeriod period => .writePeriod (BitVec.ofNat 16 period)
  | .readStatus => .readStatus
  | .readTimer => .readTimer
  | .probe dev => .beginTransfer (BitVec.ofNat 8 dev) false 0 0
  | .write dev n => .beginTransfer (BitVec.ofNat 8 dev) false (BitVec.ofNat 16 n) 0
  | .writeRs dev n => .beginTransfer (BitVec.ofNat 8 dev) true (BitVec.ofNat 16 n) 0
  | .read dev m => .beginTransfer (BitVec.ofNat 8 dev) false 0 (BitVec.ofNat 16 m)
  | .qwrite dev n => .queue (BitVec.ofNat 8 dev) false (BitVec.ofNat 16 n) 0
  | .qread dev m => .queue (BitVec.ofNat 8 dev) false 0 (BitVec.ofNat 16 m)

/-- The assembler refuses an operand that does not fit its field (R107). -/
def assemble (a : Asm) : Option Instr := if a.wf then some a.toInstr else none

/-- White space inside a line. DESIGN CHOICE (log 15): space, tab and carriage return. -/
def isBlankChar (c : Char) : Bool := c == ' ' || c == '\t' || c == '\r'

/-- `cs` without white space at its ends. -/
def trimChars (cs : List Char) : List Char :=
  ((cs.dropWhile isBlankChar).reverse.dropWhile isBlankChar).reverse

/-- The pieces of `cs` between its commas. -/
def splitCommas : List Char → List (List Char)
  | [] => [[]]
  | c :: cs =>
    if c == ',' then [] :: splitCommas cs
    else
      match splitCommas cs with
      | [] => [[c]]
      | w :: ws => (c :: w) :: ws

/-- The value of a digit, decimal or hexadecimal. -/
def digitValue (c : Char) : Option Nat :=
  if '0' ≤ c ∧ c ≤ '9' then some (c.toNat - '0'.toNat)
  else if 'a' ≤ c ∧ c ≤ 'f' then some (c.toNat - 'a'.toNat + 10)
  else if 'A' ≤ c ∧ c ≤ 'F' then some (c.toNat - 'A'.toNat + 10)
  else none

/-- The number whose digits in `base`, after those already read into `acc`, are `cs`. -/
def digitsValue (base : Nat) : Nat → List Char → Option Nat
  | acc, [] => some acc
  | acc, c :: cs =>
    match digitValue c with
    | some d => if d < base then digitsValue base (acc * base + d) cs else none
    | none => none

/-- "Numbers are decimal or `0x` hexadecimal" (R107). -/
def numberValue : List Char → Option Nat
  | [] => none
  | '0' :: 'x' :: [] => none
  | '0' :: 'x' :: c :: cs => digitsValue 16 0 (c :: cs)
  | c :: cs => digitsValue 10 0 (c :: cs)

/-- The command of mnemonic `m` with operands `args`, `rs` telling that RS was written last (R107, R108). -/
def asmOf (m : List Char) (args : List Nat) (rs : Bool) : Option Asm :=
  match args, rs with
  | [], false =>
    if m = "NOP".toList then some .nop
    else if m = "POLL".toList then some .poll
    else if m = "IS_BUS_IDLE".toList then some .isBusIdle
    else if m = "READ_STATUS".toList then some .readStatus
    else if m = "READ_TIMER".toList then some .readTimer
    else none
  | [a], false =>
    if m = "IS_FINISHED".toList then some (.isFinished a)
    else if m = "GET_COUNTS".toList then some (.getCounts a)
    else if m = "ACK_RESULT".toList then some (.ackResult a)
    else if m = "WRITE_PERIOD".toList then some (.writePeriod a)
    else if m = "PROBE".toList then some (.probe a)
    else none
  | [a, b], false =>
    if m = "WRITE".toList then some (.write a b)
    else if m = "WRITE_RS".toList then some (.writeRs a b)
    else if m = "READ".toList then some (.read a b)
    else if m = "QWRITE".toList then some (.qwrite a b)
    else if m = "QREAD".toList then some (.qread a b)
    else none
  | [a, b, c], rs =>
    if m = "BEGIN".toList then some (.beginTransfer a b c rs)
    else if m = "QUEUE".toList then some (.queue a b c rs)
    else if m = "REGISTER".toList ∧ rs = false then some (.register a b c)
    else none
  | _, _ => none

/-- One line of assembler text: a `;` starts a comment, the mnemonic comes first, commas part the operands (R107). -/
def parseAsmLine (text : List Char) : AsmLine :=
  let body := trimChars (text.takeWhile (· != ';'))
  if body = [] then .blank
  else
    let m := body.takeWhile (fun c => !isBlankChar c)
    let rest := trimChars (body.dropWhile (fun c => !isBlankChar c))
    let ops := if rest = [] then [] else (splitCommas rest).map trimChars
    let rs := ops.getLast? = some "RS".toList
    let nums := if rs then ops.dropLast else ops
    match nums.mapM numberValue with
    | none => .refused
    | some args =>
      match asmOf m args rs with
      | some a => if a.wf then .command a else .refused
      | none => .refused

/-- The command word one line of assembler text stands for, if it is a command the assembler accepts. -/
def assembleLine (text : List Char) : Option Word :=
  match parseAsmLine text with
  | .command a => (assemble a).map encode
  | .blank => none
  | .refused => none

end Sys2Proof
end

