-- ==== Sys2Proof/Config.lean ====
section
/-! DEFINITION. The implementation parameters the spec leaves OPEN (00_scope.md rules R6, R10 and R12, decision D2). -/

namespace Sys2Proof

/-- The parameters of one instance of the block: "a value the model takes as a configuration argument". -/
structure Params where
  /-- `N_DEV`, the number of descriptor slots (R6). -/
  nDev : Nat
  /-- `RETRY_BUDGET`, loaded into `retryBudget` on every arm (R10, R11). -/
  retryBudget : BitVec 8
  /-- `PERIOD_RESET`, the value of `period` after reset (R12). Every value is legal. -/
  periodReset : Half
deriving DecidableEq, Repr

/-- The legal ranges of R6 and R10. -/
abbrev Params.Legal (p : Params) : Prop :=
  1 ≤ p.nDev ∧ p.nDev ≤ 255 ∧ p.retryBudget ≠ 0

/-- The defaults of R6, R10 and R12. -/
def Params.default : Params := { nDev := 8, retryBudget := 5, periodReset := 8 }

end Sys2Proof
end

