-- ==== Sys2Proof/Machine/State.lean ====
section
/-! DEFINITION. The state of the machine, its named values, how a step can stop, and reset (10_state.md; 44_peripheral_port.md
rules R231 to R233; 70_reset_and_hazards.md rules R281 and R300). -/

namespace Sys2Proof.Machine

/-- The transaction states, a closed set (R22, R100). -/
inductive FsmState where
  | idle | start | writeAddress | writeData | restart | stop | readData
deriving DecidableEq, Repr

/-- The state of a device descriptor (R31, R102). -/
inductive DeviceState where
  | idle | requested | inProgress
deriving DecidableEq, Repr

/-- Status and result codes (R103). -/
inductive Status where
  | ok | deviceBusy | addressNack | retryExhausted | invalidDevice | registryFull | illegalOpcode
deriving DecidableEq, Repr

/-- The signals of a TransactionEvent (R42, R101). A signal lives inside one step and is never stored. -/
inductive Signal where
  | beginTransfer | busIdle | ackReceived | dataReceived | timeout | retryExhausted
deriving DecidableEq, Repr

/-- The peripheral command names (R233). -/
inductive PeriphCode where
  | issueStart | issueStop | issueRestart | sendAck | transmit | enableRx | disableRx | readRx
deriving DecidableEq, Repr

/-- One command to the peripheral, `(code, data[7:0])` (R232). -/
structure PeriphCmd where
  code : PeriphCode
  data : Byte
deriving DecidableEq, Repr

/-- The peripheral inputs sampled at the start of a step (R231). -/
structure PeriphInputs where
  /-- `LIVE[5:0]`, in the bit order of R104. -/
  live : BitVec 6
  /-- The output holding register is full. -/
  trf : Bool
  /-- The input holding register has data. -/
  rda : Bool
  /-- The last byte transmitted was acknowledged. -/
  ackstat : Bool
  /-- The byte in the input holding register. -/
  rxdata : Byte
deriving DecidableEq, Repr

/-- The reference stub (R246), with the received byte the test chooses. -/
def PeriphInputs.stub (rxdata : Byte) : PeriphInputs :=
  { live := 0, trf := false, rda := true, ackstat := true, rxdata := rxdata }

/-- One access to the buffer memory (R15, R63, R64). -/
inductive MemOp where
  | read (addr : Half) (value : Byte)
  | write (addr : Half) (value : Byte)
deriving DecidableEq, Repr

/-- What the world outside the block does next. DESIGN CHOICE (log 3). -/
inductive Event where
  /-- The host gives a command word, and the peripheral shows these inputs for that step (R16, R17). -/
  | command (cmd : Word) (inputs : PeriphInputs)
  /-- The host writes one byte of buffer memory through its own path, between steps (R62, R73). -/
  | hostWrite (addr : Half) (value : Byte)
  /-- The platform asserts the reset input, between steps (R282). -/
  | reset
deriving DecidableEq, Repr

/-- One slot of the device descriptor file (R28 to R35). -/
structure Device where
  addr7 : BitVec 7
  wbase : Half
  rbase : Half
  nsend : Half
  nread : Half
  wcount : Half
  rcount : Half
  state : DeviceState
  finished : Bool
  result : Status
  rspend : Bool
  genrs : Bool
deriving DecidableEq, Repr

/-- Every field 0, which is state `idle` and result OK (R53). -/
def Device.reset : Device :=
  { addr7 := 0, wbase := 0, rbase := 0, nsend := 0, nread := 0, wcount := 0, rcount := 0,
    state := .idle, finished := false, result := .ok, rspend := false, genrs := false }

/-- The retry timer (R37 to R40): `start`, `active`, `expired` and `exhausted` are tStart, tActive, tExpired and tExhausted. -/
structure Timer where
  period : Half
  count : Half
  retryBudget : BitVec 8
  start : Bool
  active : Bool
  expired : Bool
  exhausted : Bool
deriving DecidableEq, Repr

/-- `period` is `PERIOD_RESET`, all else 0 (R53). -/
def Timer.reset (p : Params) : Timer :=
  { period := p.periodReset, count := 0, retryBudget := 0, start := false, active := false, expired := false,
    exhausted := false }

/-- The buffer memory as (address, byte) pairs, canonical (Memory.wf): addresses rising, no byte listed that reads so anyway. -/
abbrev Memory := List Host.Cell

/-- The machine. -/
structure State where
  /-- The implementation parameters (R6, R10, R12, R41). No step writes them (log 1). -/
  params : Params
  /-- R22. -/
  fsm : FsmState
  /-- R23, bit order of R104. -/
  shadow : BitVec 6
  /-- R24. -/
  active : Handle
  /-- R25. -/
  busy : Bool
  /-- R26. -/
  cursor : Handle
  /-- R27. -/
  regCount : BitVec 8
  /-- The descriptor file `dev[0 .. N_DEV-1]` (R21). -/
  devs : List Device
  /-- The timer group (R21). -/
  timer : Timer
  /-- The buffer memory `M` (R62). -/
  mem : Memory
  /-- The peripheral inputs of the current step (R231). -/
  inputs : PeriphInputs
  /-- The response word of the last step; none when no command has been given since reset (R85, R281). -/
  response : Option Word
  /-- The peripheral commands of the last step, in order (R232). -/
  periphOut : List PeriphCmd
  /-- The buffer accesses of the last step, in order (R20, R65). -/
  memOps : List MemOp
  /-- What the host does next, in order (log 3). -/
  events : List Event
deriving DecidableEq, Repr

/-- There is no fault: "Nothing is fatal" (R269), "The block never traps" (R15). Log 14. -/
inductive Fault where
deriving DecidableEq, Repr

/-- Why a command has no meaning. -/
inductive Refusal where
  /-- Raised by an arm of `exec` whose command has no meaning yet. Safe. No arm of this model raises it. -/
  | notModelled (mnemonic : String)
deriving DecidableEq, Repr

/-- The state right after reset of a block with parameters `p` (R53, R281, R300). The inputs field holds the reference
stub until the first step samples its own: DESIGN CHOICE (log 4). -/
def State.resetWith (p : Params) : State :=
  { params := p, fsm := .idle, shadow := 0, active := 0, busy := false, cursor := 0, regCount := 0,
    devs := List.replicate p.nDev Device.reset, timer := Timer.reset p, mem := [], inputs := PeriphInputs.stub 0,
    response := none, periphOut := [], memOps := [], events := [] }

/-- The machine right after reset, with the spec's default parameters. -/
def State.reset : State := State.resetWith Params.default

end Sys2Proof.Machine
end

