-- ==== Sys2Proof/Machine/Flags.lean ====
section
/-! DEFINITION. The codes of the named values (30_encoding.md rules R100 to R104; 44_peripheral_port.md rule R233), the
shadow bits (41_status_adapter.md) and the timer flags (42_retry_timer.md). -/

namespace Sys2Proof.Machine

/-! ## Codes -/

/-- R100. -/
def FsmState.code : FsmState → BitVec 3
  | .idle => 0
  | .start => 1
  | .writeAddress => 2
  | .writeData => 3
  | .restart => 4
  | .stop => 5
  | .readData => 6

/-- R102. -/
def DeviceState.code : DeviceState → BitVec 2
  | .idle => 0
  | .requested => 1
  | .inProgress => 2

/-- R103. -/
def Status.code : Status → BitVec 4
  | .ok => 0
  | .deviceBusy => 1
  | .addressNack => 2
  | .retryExhausted => 3
  | .invalidDevice => 4
  | .registryFull => 5
  | .illegalOpcode => 6

/-- R101. -/
def Signal.code : Signal → BitVec 3
  | .beginTransfer => 0
  | .busIdle => 1
  | .ackReceived => 2
  | .dataReceived => 3
  | .timeout => 4
  | .retryExhausted => 5

/-- The EV field: the signal's code, or 7 for none (R95, R101). -/
def evCode : Option Signal → BitVec 3
  | some sig => sig.code
  | none => 7

/-- R233. -/
def PeriphCode.code : PeriphCode → BitVec 4
  | .issueStart => 1
  | .issueStop => 2
  | .issueRestart => 3
  | .sendAck => 4
  | .transmit => 5
  | .enableRx => 6
  | .disableRx => 7
  | .readRx => 8

/-- The shadow bit a bus command sets; none for a command that is no bus command (R125, R233). -/
def PeriphCode.shadowBit : PeriphCode → Option Nat
  | .issueStart => some 5
  | .issueRestart => some 4
  | .issueStop => some 3
  | .sendAck => some 2
  | .transmit => some 1
  | .enableRx => some 0
  | .disableRx => none
  | .readRx => none

/-! ## Shadow bits -/

/-- `shadow[b] <- 1`. -/
def setBit (shadow : BitVec 6) (b : Nat) : BitVec 6 := shadow ||| (1#6 <<< b)

/-- `shadow[b] <- 0`. -/
def clearBit (shadow : BitVec 6) (b : Nat) : BitVec 6 := shadow &&& ~~~(1#6 <<< b)

/-- `Fire(b)` (R162 to R164): the action was issued and its live bit is low; transmit also waits for TRF = 0 and
receive for RDA = 1. -/
def fires (shadow : BitVec 6) (inputs : PeriphInputs) (b : Nat) : Bool :=
  shadow.getLsbD b && !inputs.live.getLsbD b &&
    (if b = 1 then !inputs.trf else if b = 0 then inputs.rda else true)

/-- The firing bit with the highest index, if any (R165). -/
def firingBit (shadow : BitVec 6) (inputs : PeriphInputs) : Option Nat :=
  [5, 4, 3, 2, 1, 0].find? (fires shadow inputs)

/-- The signal of a completed action (R162 to R165). -/
def completionSignal (b : Nat) : Signal := if b = 0 then .dataReceived else .busIdle

/-! ## Timer operations -/

/-- `Arm()` (R176). -/
def Timer.arm (p : Params) (t : Timer) : Timer :=
  if t.active then { t with start := true }
  else
    { t with start := true, count := t.period, retryBudget := p.retryBudget, active := true, expired := false,
             exhausted := false }

/-- `Disarm()` (R177). -/
def Timer.disarm (t : Timer) : Timer :=
  { t with active := false, start := false, expired := false, exhausted := false }

/-- What one tick gives: the timer after it and the signals TO and EX (R178). -/
structure TickResult where
  timer : Timer
  timeout : Bool
  exhausted : Bool
deriving DecidableEq, Repr

/-- `Tick()` (R178). -/
def Timer.tick (t : Timer) : TickResult :=
  if t.active then
    if 1 < t.count then { timer := { t with count := t.count - 1 }, timeout := false, exhausted := false }
    else if t.retryBudget - 1 = 0 then
      { timer := { t with count := 0, retryBudget := t.retryBudget - 1, expired := true, exhausted := true, active := false },
        timeout := true, exhausted := true }
    else
      { timer := { t with count := t.period, retryBudget := t.retryBudget - 1, expired := true },
        timeout := true, exhausted := false }
  else { timer := t, timeout := false, exhausted := false }

end Sys2Proof.Machine
end

