-- ==== Sys2Proof/Machine/Operands.lean ====
section
/-! DEFINITION. Operands: naming a device, the transfer direction and the address byte, and the buffer addresses
(43_host_commands.md rule R213; 40_fsm.md rule R122; 20_memory.md rule R66). -/

namespace Sys2Proof.Machine

/-- `dev[i]`. A slot outside the file is never named in a reachable state; it would read as a reset slot (log 11). -/
def State.devAt (s : State) (i : Nat) : Device := s.devs.getD i Device.reset

/-- `dev[h]` for a handle `h`. -/
def State.dev (s : State) (h : Handle) : Device := s.devAt h.toNat

/-- `dev[h] <- d`. -/
def State.setDev (s : State) (h : Handle) (d : Device) : State := { s with devs := s.devs.set h.toNat d }

/-- A handle names a device exactly when `h < regCount` (R27, R213). -/
def State.validHandle (s : State) (h : Handle) : Bool := decide (h < s.regCount)

/-- `MasterRead` (R122): a read exactly when nothing is sent and something is read. -/
def Device.masterRead (d : Device) : Bool := decide (d.nsend = 0) && decide (0 < d.nread)

/-- `AddrByte` (R122): the 7-bit address with the R/W bit below it. -/
def Device.addrByte (d : Device) : Byte := d.addr7 ++ BitVec.ofBool d.masterRead

/-- The address of the next write-buffer byte, modulo 2^16 (R66). -/
def Device.writeAddr (d : Device) : Half := d.wbase + d.wcount

/-- The address of the next read-buffer byte, modulo 2^16 (R66). -/
def Device.readAddr (d : Device) : Half := d.rbase + d.rcount

end Sys2Proof.Machine
end

