-- ==== Sys2Proof/Machine/Ops.lean ====
section
/-! DEFINITION. The named operations over memory, descriptors, peripheral commands and responses, and the abort, the
block's one trap-like action. -/

namespace Sys2Proof.Machine

/-! ## Buffer memory (20_memory.md) -/

/-- What an unlisted byte of the buffer memory reads as. DESIGN CHOICE (log 2). -/
def Memory.unlisted : Byte := 0

/-- `M[a]`. -/
def Memory.readByte : Memory → Nat → Byte
  | [], _ => Memory.unlisted
  | (k, v) :: m, a => if k = a then v else Memory.readByte m a

/-- `M[a] <- v`, in canonical form. -/
def Memory.writeByte : Memory → Nat → Byte → Memory
  | [], a, v => if v = Memory.unlisted then [] else [(a, v)]
  | (k, x) :: m, a, v =>
    if a < k then (if v = Memory.unlisted then (k, x) :: m else (a, v) :: (k, x) :: m)
    else if a = k then (if v = Memory.unlisted then m else (a, v) :: m)
    else (k, x) :: Memory.writeByte m a v

/-- The canonical form over addresses from `lo` on: rising, below 2^16 (R62), no byte listed that reads so anyway. -/
def Memory.wfFrom : Nat → Memory → Bool
  | _, [] => true
  | lo, (k, v) :: m => decide (lo ≤ k) && decide (k < 2 ^ 16) && decide (v ≠ Memory.unlisted) && Memory.wfFrom (k + 1) m

/-- The canonical form of the buffer memory. -/
def Memory.wf (m : Memory) : Bool := Memory.wfFrom 0 m

/-- The byte `MemRead(a, 1)` returns (R63). -/
def State.readByte (s : State) (a : Half) : Byte := Memory.readByte s.mem a.toNat

/-- `MemRead(a, 1)` as an access of the step: it changes nothing but the list of accesses (R63). -/
def State.noteRead (s : State) (a : Half) : State := { s with memOps := s.memOps ++ [.read a (s.readByte a)] }

/-- `MemWrite(a, 1, v)` (R64). -/
def State.memWrite (s : State) (a : Half) (v : Byte) : State :=
  { s with mem := Memory.writeByte s.mem a.toNat v, memOps := s.memOps ++ [.write a v] }

/-! ## Responses (30_encoding.md rules R85 and R90) -/

/-- The response word of a status and a payload: the payload is 0 unless the status is OK. -/
def responseWord (st : Status) (payload : BitVec 60) : Word := st.code ++ (if st = .ok then payload else 0#60)

/-- `respond(status, payload)`. -/
def State.respond (s : State) (st : Status) (payload : BitVec 60) : State :=
  { s with response := some (responseWord st payload) }

/-- The end of a command (R15). -/
def finish (s : State) (st : Status) (payload : BitVec 60) : Host.Outcome State Fault Refusal := .next (s.respond st payload)

/-- The payload with a handle at 59:52 and 0 elsewhere (R86). -/
def handlePayload (h : Handle) : BitVec 60 := h ++ 0#52

/-- STATUS view (R95), with the step's EV and TO. -/
def State.statusView (s : State) (ev : Option Signal) (timeout : Bool) : BitVec 60 :=
  s.active ++ (s.cursor ++ (s.regCount ++ (s.fsm.code ++ (BitVec.ofBool s.busy ++ (s.shadow ++
    (BitVec.ofBool s.timer.start ++ (BitVec.ofBool s.timer.active ++ (BitVec.ofBool s.timer.expired ++
      (BitVec.ofBool s.timer.exhausted ++ (evCode ev ++ (BitVec.ofBool timeout ++ 0#18)))))))))))

/-- TIMER view (R96). -/
def State.timerView (s : State) : BitVec 60 :=
  0#12 ++ (s.timer.period ++ (s.timer.count ++ (s.timer.retryBudget ++ (0#4 ++ (BitVec.ofBool s.timer.start ++
    (BitVec.ofBool s.timer.active ++ (BitVec.ofBool s.timer.expired ++ BitVec.ofBool s.timer.exhausted)))))))

/-- Payload of IS_FINISHED (R87, R204). -/
def finishedPayload (h : Handle) (d : Device) : BitVec 60 :=
  h ++ (0#3 ++ (BitVec.ofBool d.finished ++ (d.result.code ++ (0#2 ++ (d.state.code ++ (0#3 ++ (BitVec.ofBool d.rspend ++
    (0#3 ++ (BitVec.ofBool d.genrs ++ 0#32)))))))))

/-- Payload of GET_COUNTS (R88, R205). -/
def countsPayload (h : Handle) (d : Device) : BitVec 60 := h ++ (0#20 ++ (d.wcount ++ d.rcount))

/-! ## Peripheral commands and the timer -/

/-- `Issue(code, data)` (R125): append the command; for a bus command also set its shadow bit and arm the timer. -/
def State.issue (s : State) (code : PeriphCode) (data : Byte) : State :=
  match code.shadowBit with
  | some b =>
    { s with periphOut := s.periphOut ++ [⟨code, data⟩], shadow := setBit s.shadow b, timer := s.timer.arm s.params }
  | none => { s with periphOut := s.periphOut ++ [⟨code, data⟩] }

/-- `Disarm()` on the machine (R177). -/
def State.disarm (s : State) : State := { s with timer := s.timer.disarm }

/-! ## The registry -/

/-- `InitRequest(h, ns, nr, rs)` on a descriptor (R195). -/
def Device.initRequest (d : Device) (nsend nread : Half) (rs : Bool) : Device :=
  { d with nsend := nsend, nread := nread, genrs := rs, wcount := 0, rcount := 0, finished := false, result := .ok }

/-- A device with pending work (R18, R212). -/
def State.isRequested (s : State) (i : Nat) : Bool := decide ((s.devAt i).state = .requested)

/-- `NextCursor(a)` (R212). -/
def State.nextCursor (s : State) (a : Handle) : Handle :=
  let n := s.regCount.toNat
  match (List.range' 1 n).find? (fun k => s.isRequested ((a.toNat + k) % n)) with
  | some k => BitVec.ofNat 8 ((a.toNat + k) % n)
  | none => BitVec.ofNat 8 ((a.toNat + 1) % n)

/-- The repeated-start hold: some registered device has `rspend` = 1 (R198, R199). -/
def State.held (s : State) : Bool := (List.range s.regCount.toNat).any (fun j => (s.devAt j).rspend)

/-- The scheduler may start slot `j` (R198, R199). -/
def State.eligible (s : State) (j : Nat) : Bool := s.isRequested j && (!s.held || (s.devAt j).rspend)

/-- The slot the scheduler starts: the first eligible one from `cursor` on, in cyclic order (R198). -/
def State.scheduled (s : State) : Option Handle :=
  let n := s.regCount.toNat
  match (List.range' 0 n).find? (fun k => s.eligible ((s.cursor.toNat + k) % n)) with
  | some k => some (BitVec.ofNat 8 ((s.cursor.toNat + k) % n))
  | none => none

/-! ## The ends of a transaction -/

/-- `Complete()` (R123). -/
def State.complete (s : State) : State :=
  let s1 := { s with fsm := .idle, busy := false }.setDev s.active
    { s.dev s.active with finished := true, state := .idle }
  { s1 with cursor := s1.nextCursor s.active }

/-- `Abort()` (R256), the only trap-like action: what it saves, where control goes. There is no return from it (R258). -/
def State.abort (s : State) : State :=
  let s1 := { s with fsm := .idle, busy := false, shadow := 0 }.setDev s.active
    { s.dev s.active with finished := true, result := .retryExhausted, state := .idle, rspend := false, genrs := false }
  { s1 with cursor := s1.nextCursor s.active }

/-! ## Between and at the start of steps -/

/-- The start of a step (R16): the event is taken, the peripheral inputs are sampled, the ports carry nothing yet. -/
def State.openStep (s : State) (inputs : PeriphInputs) (rest : List Event) : State :=
  { s with inputs := inputs, response := none, periphOut := [], memOps := [], events := rest }

/-- The reset input (R281, R283): every register of the block takes its reset value, no command goes out, the buffer
memory stays. -/
def State.blockReset (s : State) (rest : List Event) : State :=
  { State.resetWith s.params with mem := s.mem, inputs := s.inputs, events := rest }

/-- The host writes one byte of buffer memory through its own path (R62); the block takes no step. -/
def State.hostWrite (s : State) (a : Half) (v : Byte) (rest : List Event) : State :=
  { s with mem := Memory.writeByte s.mem a.toNat v, events := rest }

/-- `s` with a command word put before the host's other moves, the peripheral's inputs being as they were. -/
def State.withCommand (s : State) (w : Word) : State := { s with events := .command w s.inputs :: s.events }

end Sys2Proof.Machine
end

