-- ==== Sys2Proof/Machine/Accessors.lean ====
section
/-! DEFINITION. The read-only commands: IS_FINISHED, GET_COUNTS, IS_BUS_IDLE, READ_STATUS and READ_TIMER
(43_host_commands.md rules R204 to R206, R209, R210). -/

namespace Sys2Proof.Machine

/-- IS_FINISHED (R204). -/
def execIsFinished (dev : Handle) (s : State) : Host.Outcome State Fault Refusal :=
  if !s.validHandle dev then finish s .invalidDevice 0 else finish s .ok (finishedPayload dev (s.dev dev))

/-- GET_COUNTS (R205). -/
def execGetCounts (dev : Handle) (s : State) : Host.Outcome State Fault Refusal :=
  if !s.validHandle dev then finish s .invalidDevice 0 else finish s .ok (countsPayload dev (s.dev dev))

/-- IS_BUS_IDLE (R89, R206). -/
def execIsBusIdle (s : State) : Host.Outcome State Fault Refusal := finish s .ok (if s.busy then 0 else 1)

/-- READ_STATUS (R209): EV is 7 and TO is 0. -/
def execReadStatus (s : State) : Host.Outcome State Fault Refusal := finish s .ok (s.statusView none false)

/-- READ_TIMER (R210). -/
def execReadTimer (s : State) : Host.Outcome State Fault Refusal := finish s .ok s.timerView

end Sys2Proof.Machine
end

