-- ==== Sys2Proof/Machine/Fsm.lean ====
section
/-! DEFINITION. The transaction state machine (40_fsm.md), one definition per state, and the status adapter that feeds it
(41_status_adapter.md rule R165). The transition out of Idle is `State.startTransfer`. -/

namespace Sys2Proof.Machine

/-- Issue a bus command, the timer disarmed first, and go to `next`: the shape of a consuming transition (R124 to R126). -/
def State.proceed (s : State) (code : PeriphCode) (data : Byte) (next : FsmState) : State :=
  { s.disarm.issue code data with fsm := next }

/-- End a write: a repeated start if the caller asked for one, else a stop (R132, R133, R136, R137). -/
def State.endWrite (s : State) (genrs : Bool) : State :=
  if genrs then s.proceed .issueRestart 0 .restart else s.proceed .issueStop 0 .stop

/-- Start on BUS_IDLE (R129). -/
def onStart (s : State) : State := s.proceed .transmit (s.dev s.active).addrByte .writeAddress

/-- WriteAddress on BUS_IDLE (R130 to R134). -/
def onWriteAddress (s : State) : State :=
  let d := s.dev s.active
  if s.inputs.ackstat then
    if d.masterRead then s.proceed .enableRx 0 .readData
    else if 0 < d.nsend then (s.noteRead d.writeAddr).proceed .transmit (s.readByte d.writeAddr) .writeData
    else s.endWrite d.genrs
  else (s.setDev s.active { d with result := .addressNack }).proceed .issueStop 0 .stop

/-- WriteData on BUS_IDLE (R135 to R138). A byte not acknowledged changes nothing (R138). A cursor past the requested
size, which no run reaches (R52), takes no rule and the signal is discarded (R147; log 9). -/
def onWriteData (s : State) : State :=
  let d := s.dev s.active
  let d1 := { d with wcount := d.wcount + 1 }
  let s1 := s.setDev s.active d1
  if s.inputs.ackstat then
    if d1.wcount < d.nsend then (s1.noteRead d1.writeAddr).proceed .transmit (s1.readByte d1.writeAddr) .writeData
    else if d1.wcount = d.nsend then s1.endWrite d.genrs
    else s
  else s

/-- Restart on BUS_IDLE (R139). -/
def onRestart (s : State) : State :=
  (s.disarm.setDev s.active { s.dev s.active with rspend := true, genrs := false }).complete

/-- Stop on BUS_IDLE (R140). -/
def onStop (s : State) : State := s.disarm.complete

/-- ReadData on BUS_IDLE (R142, R143). A cursor past the requested size, which no run reaches (R52), takes no rule and the
signal is discarded (R147; log 9). -/
def onReadDataBusIdle (s : State) : State :=
  let d := s.dev s.active
  if d.rcount < d.nread then s.proceed .enableRx 0 .readData
  else if d.rcount = d.nread then s.proceed .issueStop 0 .stop
  else s

/-- ReadData on DATA_RECEIVED (R141): take the byte, store it at the read cursor, then ACK while bytes remain. -/
def onDataReceived (s : State) : State :=
  let d := s.dev s.active
  let d1 := { d with rcount := d.rcount + 1 }
  let s1 := ((s.disarm.issue .readRx 0).memWrite d.readAddr s.inputs.rxdata).setDev s.active d1
  s1.issue .sendAck (if d1.rcount < d1.nread then 1 else 0)

/-- The FSM takes BUS_IDLE. In Idle it is discarded (R147). -/
def onBusIdle (s : State) : State :=
  match s.fsm with
  | .idle => s
  | .start => onStart s
  | .writeAddress => onWriteAddress s
  | .writeData => onWriteData s
  | .restart => onRestart s
  | .stop => onStop s
  | .readData => onReadDataBusIdle s

/-- `FSM(sig)`: the transition a delivered signal takes. BEGIN_TRANSFER is taken by `State.startTransfer` and never
delivered here (R148); ACK_RECEIVED is never produced (R146); TIMEOUT changes nothing (R145). -/
def transition (sig : Signal) (s : State) : State :=
  match sig with
  | .beginTransfer => s
  | .busIdle => onBusIdle s
  | .ackReceived => s
  | .dataReceived => if s.fsm = .readData then onDataReceived s else s
  | .timeout => s
  | .retryExhausted => if s.fsm = .idle then s else s.abort

end Sys2Proof.Machine
end

