-- ==== Sys2Proof/Machine/Transfer.lean ====
section
/-! DEFINITION. Starting transfers: StartTransfer, BEGIN and QUEUE (40_fsm.md rules R127 and R128; 43_host_commands.md rules
R194 to R196). -/

namespace Sys2Proof.Machine

/-- `StartTransfer(h)`, the FSM taking BEGIN_TRANSFER: with a START (R127), or, after a repeated start of this device,
straight to the address byte (R128). -/
def State.startTransfer (s : State) (h : Handle) : State :=
  let d := s.dev h
  let s1 := { s with active := h, busy := true }
  if d.rspend then
    { (s1.setDev h { d with state := .inProgress, rspend := false }).issue .transmit d.addrByte with fsm := .writeAddress }
  else
    { (s1.setDev h { d with state := .inProgress }).issue .issueStart 0 with fsm := .start }

/-- BEGIN (R194). The signal BEGIN_TRANSFER is taken in the same step. -/
def execBegin (dev : Handle) (rs : Bool) (nsend nread : Half) (s : State) : Host.Outcome State Fault Refusal :=
  if !s.validHandle dev then finish s .invalidDevice 0
  else if s.busy then finish s .deviceBusy 0
  else
    finish ((s.setDev dev ((s.dev dev).initRequest nsend nread rs)).startTransfer dev) .ok (handlePayload dev)

/-- QUEUE (R196). It starts nothing: the POLL that finds the FSM Idle does. -/
def execQueue (dev : Handle) (rs : Bool) (nsend nread : Half) (s : State) : Host.Outcome State Fault Refusal :=
  if !s.validHandle dev then finish s .invalidDevice 0
  else if (s.dev dev).state ≠ .idle then finish s .deviceBusy 0
  else
    finish (s.setDev dev { (s.dev dev).initRequest nsend nread rs with state := .requested }) .ok (handlePayload dev)

end Sys2Proof.Machine
end

