-- ==== Sys2Proof/Machine/Poll.lean ====
section
/-! DEFINITION. POLL and its phases (43_host_commands.md rules R197 to R203). -/

namespace Sys2Proof.Machine

/-- What the phases of a POLL leave: the state, the signal for EV, and TO (R197). -/
structure PollResult where
  state : State
  ev : Option Signal
  timeout : Bool
deriving DecidableEq, Repr

/-- Phase S: start the scheduled device, if there is one (R198). -/
def schedulePhase (s : State) : PollResult :=
  match s.scheduled with
  | some j => { state := { s with cursor := j }.startTransfer j, ev := some .beginTransfer, timeout := false }
  | none => { state := s, ev := none, timeout := false }

/-- Phase A: the adapter clears the firing bit and delivers its signal (R165, R202); with none, a TIMEOUT shows in EV and
changes nothing (R145). -/
def adapterPhase (s : State) (timeout : Bool) : PollResult :=
  match firingBit s.shadow s.inputs with
  | some b =>
    { state := transition (completionSignal b) { s with shadow := clearBit s.shadow b }
      ev := some (completionSignal b)
      timeout := timeout }
  | none => { state := s, ev := if timeout then some .timeout else none, timeout := timeout }

/-- Phases T, E and A: tick; abort if the budget is exhausted, else run the adapter (R200 to R202). -/
def busyPhases (s : State) : PollResult :=
  let t := s.timer.tick
  let s1 := { s with timer := t.timer }
  if t.exhausted then
    { state := transition .retryExhausted s1, ev := some .retryExhausted, timeout := t.timeout }
  else adapterPhase s1 t.timeout

/-- The phases of a POLL (R197). -/
def pollPhases (s : State) : PollResult := if s.fsm = .idle then schedulePhase s else busyPhases s

/-- POLL (R197, R203): the STATUS view of the state after all phases. -/
def execPoll (s : State) : Host.Outcome State Fault Refusal :=
  let r := pollPhases s
  finish r.state .ok (r.state.statusView r.ev r.timeout)

end Sys2Proof.Machine
end

