-- ==== Sys2Proof/Machine/Registry.lean ====
section
/-! DEFINITION. The commands of the registry and the configuration: REGISTER, ACK_RESULT, WRITE_PERIOD, NOP and the
reserved opcodes (43_host_commands.md rules R192, R193, R207, R208, R211). -/

namespace Sys2Proof.Machine

/-- NOP (R192). -/
def execNop (s : State) : Host.Outcome State Fault Refusal := finish s .ok 0

/-- The descriptor REGISTER writes: its operands, and every other field cleared (R193). -/
def registeredDevice (addr7 : BitVec 7) (wbase rbase : Half) : Device :=
  { Device.reset with addr7 := addr7, wbase := wbase, rbase := rbase }

/-- REGISTER (R193). -/
def execRegister (addr7 : BitVec 7) (wbase rbase : Half) (s : State) : Host.Outcome State Fault Refusal :=
  if s.regCount.toNat = s.params.nDev then finish s .registryFull 0
  else
    finish { s.setDev s.regCount (registeredDevice addr7 wbase rbase) with regCount := s.regCount + 1 } .ok
      (handlePayload s.regCount)

/-- ACK_RESULT (R207). -/
def execAckResult (dev : Handle) (s : State) : Host.Outcome State Fault Refusal :=
  if !s.validHandle dev then finish s .invalidDevice 0
  else if (s.dev dev).state = .inProgress then finish s .deviceBusy 0
  else finish (s.setDev dev { s.dev dev with finished := false, result := .ok }) .ok (handlePayload dev)

/-- WRITE_PERIOD (R208). -/
def execWritePeriod (period : Half) (s : State) : Host.Outcome State Fault Refusal :=
  finish { s with timer := { s.timer with period := period } } .ok 0

/-- The reserved opcodes 0xC to 0xF (R98, R211): the same for each. -/
def execReserved (_op : BitVec 4) (s : State) : Host.Outcome State Fault Refusal := finish s .illegalOpcode 0

end Sys2Proof.Machine
end

