-- ==== Sys2Proof/Machine/Dispatch.lean ====
section
/-! DEFINITION. One arm per command (43_host_commands.md rule R191). -/

namespace Sys2Proof.Machine

def exec (i : Instr) (s : State) : Host.Outcome State Fault Refusal :=
  match i with
  | .nop => Sys2Proof.Machine.execNop s
  | .register addr7 wbase rbase => Sys2Proof.Machine.execRegister addr7 wbase rbase s
  | .beginTransfer dev rs nsend nread => Sys2Proof.Machine.execBegin dev rs nsend nread s
  | .queue dev rs nsend nread => Sys2Proof.Machine.execQueue dev rs nsend nread s
  | .poll => Sys2Proof.Machine.execPoll s
  | .isFinished dev => Sys2Proof.Machine.execIsFinished dev s
  | .getCounts dev => Sys2Proof.Machine.execGetCounts dev s
  | .isBusIdle => Sys2Proof.Machine.execIsBusIdle s
  | .ackResult dev => Sys2Proof.Machine.execAckResult dev s
  | .writePeriod period => Sys2Proof.Machine.execWritePeriod period s
  | .readStatus => Sys2Proof.Machine.execReadStatus s
  | .readTimer => Sys2Proof.Machine.execReadTimer s
  | .reserved op => Sys2Proof.Machine.execReserved op s

end Sys2Proof.Machine
end

