-- ==== Sys2Proof/Machine/Step.lean ====
section
/-! DEFINITION. One step of the machine: the host's next move (00_scope.md rules R16, R17 and R20; log 3). -/

namespace Sys2Proof.Machine

/-- One host command with the peripheral inputs of its step: the step function of R20, its results in the state. -/
def commandStep (w : Word) (inputs : PeriphInputs) (rest : List Event) (s : State) : Host.Outcome State Fault Refusal :=
  exec (decode w) (s.openStep inputs rest)

/-- The next move of the world outside. With none, the block "holds its state and does nothing" (R268). -/
def step (s : State) : Host.Outcome State Fault Refusal :=
  match s.events with
  | [] => .next s
  | .command w inputs :: rest => commandStep w inputs rest s
  | .hostWrite a v :: rest => .next (s.hostWrite a v rest)
  | .reset :: rest => .next (s.blockReset rest)

/-- `s` with the opcode-table word `w` as the host's next command. -/
def State.withFetchWord (s : State) (nbits w : Nat) : State := s.withCommand (BitVec.ofNat 64 (w % 2 ^ nbits))

end Sys2Proof.Machine
end

