-- ==== Sys2Proof/Safety.lean ====
section
/-! DEFINITION. What a safe run is, in the terms the statements use: the invariants of 10_state.md section 8, the settled
state of R301, and the bounds of R181 and R302. -/

namespace Sys2Proof.Machine

/-- The shadow bits that can be set in each transaction state: the one action outstanding there (R49, R50). In WriteData
none may be left, after a byte that was not acknowledged (R138). -/
def shadowFits (f : FsmState) (shadow : BitVec 6) : Prop :=
  match f with
  | .idle => shadow = 0b000000#6
  | .start => shadow = 0b100000#6
  | .writeAddress => shadow = 0b000010#6
  | .writeData => shadow = 0b000010#6 ∨ shadow = 0b000000#6
  | .restart => shadow = 0b010000#6
  | .stop => shadow = 0b001000#6
  | .readData => shadow = 0b000001#6 ∨ shadow = 0b000100#6

/-- How far the active device's cursors can be in each transaction state, and that only a read is in ReadData: what makes
R52 inductive and R302's count of bus actions a bound. -/
def progressFits (f : FsmState) (shadow : BitVec 6) (d : Device) : Prop :=
  match f with
  | .start => d.wcount = 0 ∧ d.rcount = 0
  | .writeAddress => d.wcount = 0 ∧ d.rcount = 0
  | .writeData => d.wcount < d.nsend
  | .readData => d.masterRead = true ∧ (shadow = 0b000001#6 → d.rcount < d.nread)
  | .idle => True
  | .restart => True
  | .stop => True

/-- The invariant: every state reachable from reset meets it. -/
structure State.Inv (s : State) : Prop where
  /-- R6, R10. -/
  params : s.params.Legal
  /-- The descriptor file has N_DEV slots (R21). -/
  slots : s.devs.length = s.params.nDev
  /-- R27. -/
  registered : s.regCount.toNat ≤ s.params.nDev
  /-- R26. -/
  cursorRegistered : s.cursor < s.regCount ∨ s.regCount = 0 ∧ s.cursor = 0
  /-- R24. -/
  activeRegistered : s.busy = true → s.active < s.regCount
  /-- R48. -/
  busyIffNotIdle : s.busy = true ↔ s.fsm ≠ .idle
  /-- R49. -/
  timerIffNotIdle : s.timer.active = true ↔ s.fsm ≠ .idle
  /-- R178: "`retryBudget` ≥ 1 whenever `tActive` = 1". -/
  budgetLeft : s.timer.active = true → s.timer.retryBudget ≠ 0
  /-- `Arm()` loads RETRY_BUDGET and the tick only takes from it (R39). -/
  budgetBounded : s.timer.retryBudget ≤ s.params.retryBudget
  /-- R49, R50. -/
  shadowOne : shadowFits s.fsm s.shadow
  /-- R51. -/
  oneInProgress : ∀ j < s.regCount.toNat, (s.devAt j).state = .inProgress ↔ s.busy = true ∧ j = s.active.toNat
  /-- R52. -/
  countsBounded : ∀ j < s.regCount.toNat, (s.devAt j).wcount ≤ (s.devAt j).nsend ∧ (s.devAt j).rcount ≤ (s.devAt j).nread
  /-- A queued request has not begun. -/
  requestFresh : ∀ j < s.regCount.toNat,
    (s.devAt j).state = .requested → (s.devAt j).wcount = 0 ∧ (s.devAt j).rcount = 0
  /-- How far the transaction in flight can be. -/
  progress : progressFits s.fsm s.shadow (s.dev s.active)
  /-- The buffer memory is in canonical form. -/
  memory : s.mem.wf = true

/-- Slot `j` is eligible to the scheduler (R199): it is requested, and no registered device has `rspend` = 1 or it has. -/
def State.MayStart (s : State) (j : Nat) : Prop :=
  (s.devAt j).state = .requested ∧ ((∀ i < s.regCount.toNat, (s.devAt i).rspend = false) ∨ (s.devAt j).rspend = true)

/-- A settled state: nothing in flight and nothing the scheduler may start (R301). -/
def State.Settled (s : State) : Prop := s.fsm = .idle ∧ ∀ j < s.regCount.toNat, ¬ s.MayStart j

/-- No tick of this state exhausts the retry budget: the negation of R178's last case. -/
def State.TickSurvives (s : State) : Prop :=
  ¬ (s.timer.active = true ∧ s.timer.count ≤ 1 ∧ s.timer.retryBudget = 1)

/-- The timer as `Arm()` leaves it when it was inactive (R176). -/
def State.armedTimer (s : State) : Timer :=
  { period := s.timer.period, count := s.timer.period, retryBudget := s.params.retryBudget, start := true, active := true,
    expired := false, exhausted := false }

/-- P' = max(P, 1) polls per expiry (R181). -/
def Timer.spacing (t : Timer) : Nat := max t.period.toNat 1

/-- Outstanding action `i` completes under these inputs (R162 to R164). -/
def actionCompletes (shadow : BitVec 6) (x : PeriphInputs) (i : Nat) : Prop :=
  shadow.getLsbD i = true ∧ x.live.getLsbD i = false ∧ (i = 1 → x.trf = false) ∧ (i = 0 → x.rda = true)

/-- No outstanding action completes under these inputs: each has its live bit still 1, or is a transmit held back by TRF = 1
or a receive held back by RDA = 0; or nothing is outstanding. -/
def nothingCompletes (shadow : BitVec 6) (x : PeriphInputs) : Prop := ∀ i, ¬ actionCompletes shadow x i

/-- No signal that the FSM consumes arrives in POLLs with these inputs (R183): nothing completes; or a data byte completes
that was not acknowledged, its signal is lost (R138), and then nothing is outstanding, whatever the inputs. -/
def State.Unconsumed (s : State) (xs : List PeriphInputs) : Prop :=
  (∀ x ∈ xs, nothingCompletes s.shadow x) ∨
  s.fsm = .writeData ∧ ∃ before x after, xs = before ++ x :: after ∧ (∀ y ∈ before, nothingCompletes s.shadow y) ∧
    actionCompletes s.shadow x 1 ∧ x.ackstat = false

/-- A POLL command with the peripheral inputs of its step. -/
def pollEvent (inputs : PeriphInputs) : Event := .command 0x4000000000000000#64 inputs

/-- A bound on the bus actions of a transaction (R302): `nsend` + 3 for a write and 2·`nread` + 3 for a read. -/
def Device.actionBound (d : Device) : Nat := if d.masterRead then 2 * d.nread.toNat + 3 else d.nsend.toNat + 3

/-- R302's bound on the POLLs before a state settles: bus actions × RETRY_BUDGET × P' for the transaction in flight and for
each requested device, plus one scheduler POLL for each requested device. -/
def State.settleBound (s : State) : Nat :=
  let perAction := s.params.retryBudget.toNat * s.timer.spacing
  (if s.busy then (s.dev s.active).actionBound * perAction else 0) +
    ((List.range s.regCount.toNat).map fun j =>
      if s.isRequested j then (s.devAt j).actionBound * perAction + 1 else 0).sum

/-- The bits of a command word that its format names (R82); every other bit is reserved (R97). -/
def usedBits (op : BitVec 4) : Word :=
  match op.toNat with
  | 0x1 => 0xF7F00000FFFFFFFF#64
  | 0x2 => 0xFFF10000FFFFFFFF#64
  | 0x3 => 0xFFF10000FFFFFFFF#64
  | 0x5 => 0xFFF0000000000000#64
  | 0x6 => 0xFFF0000000000000#64
  | 0x8 => 0xFFF0000000000000#64
  | 0x9 => 0xF00000000000FFFF#64
  | _ => 0xF000000000000000#64

/-- The registered device whose descriptor a command may write (R43): the one it names, or for POLL the one active after
it. REGISTER writes a slot that was not registered. -/
def touchedDevice (i : Instr) (t : State) : Option Handle :=
  match i with
  | .beginTransfer dev _ _ _ => some dev
  | .queue dev _ _ _ => some dev
  | .ackResult dev => some dev
  | .poll => some t.active
  | _ => none

/-- `s` with other peripheral inputs. -/
def State.withInputs (s : State) (x : PeriphInputs) : State := { s with inputs := x }

/-- An outcome with other peripheral inputs in its state. -/
def outcomeWithInputs (x : PeriphInputs) :
    Host.Outcome State Fault Refusal → Host.Outcome State Fault Refusal
  | .next t => .next (t.withInputs x)
  | .fault r => .fault r
  | .refused r => .refused r

/-- A safe run of `n` steps: it does not stop, and the state it reaches meets the invariant. -/
def State.SafeFor (n : Nat) (s : State) : Prop := ∃ t, Sys2Proof.core.run n s = .next t ∧ State.Inv t

end Sys2Proof.Machine
end

