-- ==== Sys2Proof/Certificates/Slice0/Obligations.lean ====
section
/-! DEFINITION. The statements for the provers. Each docstring names the rule of spec/ it formalises. -/

open Sys2Proof Sys2Proof.Machine

/-! ## Encoding -/

/-- R82 to R84, R98: no bit of an operand is lost between the encoder and the decoder. -/
def Obligations.DecodeInvertsEncode : Prop := ∀ i : Instr, i.wf = true → decode (encode i) = i

/-- R105: one of the twelve commands or the reserved class, from CMD[63:60] alone. -/
def Obligations.OpcodeFieldSelectsCommand : Prop :=
  ∀ w : Word, (decode w).op = w.extractLsb' 60 4 ∧ (decode w).wf = true

/-- R97: a command with nonzero reserved bits executes exactly as the same command with those bits zero. -/
def Obligations.ReservedBitsAreIgnored : Prop :=
  ∀ (s : State) (w : Word) (x : PeriphInputs) (rest : List Event), s.events = .command w x :: rest →
    step s = step { s with events := .command (w &&& usedBits (w.extractLsb' 60 4)) x :: rest }

/-- R109 and R98: words written out in the spec decode to the commands they stand for. -/
def Obligations.SpecWordsDecode : Prop :=
  decode 0x1500000001000200#64 = .register 0x50 0x0100 0x0200 ∧
  decode 0x2001000000010000#64 = .beginTransfer 0 true 1 0 ∧
  decode 0x3020000000010000#64 = .queue 2 false 1 0 ∧
  decode 0x4000000000000000#64 = .poll ∧
  decode 0x5000000000000000#64 = .isFinished 0 ∧
  decode 0x9000000000000003#64 = .writePeriod 3 ∧
  decode 0xF123456789ABCDEF#64 = .reserved 0xF

/-- R107's last sentence: the assembler refuses exactly the operands that do not fit their field. -/
def Obligations.AssemblerRefusesWideOperands : Prop :=
  (∀ a w r, (assemble (.register a w r)).isSome = true ↔ a ≤ 0x7F ∧ w ≤ 0xFFFF ∧ r ≤ 0xFFFF) ∧
  (∀ d n m rs, (assemble (.beginTransfer d n m rs)).isSome = true ↔ d ≤ 0xFF ∧ n ≤ 0xFFFF ∧ m ≤ 0xFFFF) ∧
  (∀ d n m rs, (assemble (.queue d n m rs)).isSome = true ↔ d ≤ 0xFF ∧ n ≤ 0xFFFF ∧ m ≤ 0xFFFF) ∧
  (∀ d, (assemble (.isFinished d)).isSome = true ↔ d ≤ 0xFF) ∧
  (∀ d, (assemble (.getCounts d)).isSome = true ↔ d ≤ 0xFF) ∧
  (∀ d, (assemble (.ackResult d)).isSome = true ↔ d ≤ 0xFF) ∧
  (∀ p, (assemble (.writePeriod p)).isSome = true ↔ p ≤ 0xFFFF)

/-! ## The step, reset and the host -/

/-- R16, R191: a command's step samples its inputs, starts with empty ports and runs the decoded command. That the command
comes from the list of events is the model's choice (log 3). -/
def Obligations.StepRunsDecodedCommand : Prop :=
  ∀ (s : State) (w : Word) (x : PeriphInputs) (rest : List Event), s.events = .command w x :: rest →
    step s = exec (decode w) { s with inputs := x, response := none, periphOut := [], memOps := [], events := rest }

/-- R268: between commands the block holds its state and does nothing. The list of events is the model's (log 3). -/
def Obligations.WithoutEventNothingHappens : Prop := ∀ s : State, s.events = [] → step s = .next s

/-- R281: the reset input sets every register, emits nothing and leaves the buffer memory. That it comes from the list of
events is the model's choice (log 3), and so is what the inputs hold after it (log 4), that the parameters and the coming
events stay, and how the ports read (log 6). -/
def Obligations.ResetInputSetsEveryRegister : Prop :=
  ∀ (s : State) (rest : List Event), s.events = .reset :: rest → ∃ x,
    step s = .next
      { params := s.params, fsm := .idle, shadow := 0, active := 0, busy := false, cursor := 0, regCount := 0
        devs := List.replicate s.params.nDev
          { addr7 := 0, wbase := 0, rbase := 0, nsend := 0, nread := 0, wcount := 0, rcount := 0, state := .idle
            finished := false, result := .ok, rspend := false, genrs := false }
        timer := { period := s.params.periodReset, count := 0, retryBudget := 0, start := false, active := false
                   expired := false, exhausted := false }
        mem := s.mem, inputs := x, response := none, periphOut := [], memOps := [], events := rest }

/-- R6, R10, R12, R53: the state right after reset with the default parameters. -/
def Obligations.ResetStateHoldsSpecValues : Prop :=
  State.reset.params = { nDev := 8, retryBudget := 5, periodReset := 8 } ∧ State.reset.fsm = .idle ∧
  State.reset.shadow = 0 ∧ State.reset.active = 0 ∧ State.reset.busy = false ∧ State.reset.cursor = 0 ∧
  State.reset.regCount = 0 ∧ State.reset.devs.length = 8 ∧
  (∀ i, State.reset.devAt i =
    { addr7 := 0, wbase := 0, rbase := 0, nsend := 0, nread := 0, wcount := 0, rcount := 0, state := .idle
      finished := false, result := .ok, rspend := false, genrs := false }) ∧
  State.reset.timer =
    { period := 8, count := 0, retryBudget := 0, start := false, active := false, expired := false, exhausted := false } ∧
  State.reset.response = none ∧ State.reset.periphOut = [] ∧ State.reset.memOps = []

/-- R62, R64: a host write between steps sets one byte and touches nothing of the block. The event is the model's (log 3). -/
def Obligations.HostWriteSetsOneByte : Prop :=
  ∀ (s : State) (a : Half) (v : Byte) (rest : List Event), s.events = .hostWrite a v :: rest → s.mem.wf = true → ∃ m,
    step s = .next { s with mem := m, events := rest } ∧
    ∀ b : Half, ({ s with mem := m } : State).readByte b = if b = a then v else s.readByte b

/-! ## Commands without bus activity -/

/-- R192, R211: NOP and the reserved opcodes change nothing. -/
def Obligations.NopAndReservedOnlyRespond : Prop :=
  ∀ s : State,
    exec .nop s = .next { s with response := some 0x0000000000000000#64 } ∧
    ∀ op, exec (.reserved op) s = .next { s with response := some 0x6000000000000000#64 }

/-- R193, R251: REGISTER fills the slot at `regCount`, which the file has, and returns its handle; a full registry refuses. -/
def Obligations.RegisterAppendsDeviceOrRefuses : Prop :=
  ∀ (s : State) (a : BitVec 7) (w r : Half), s.Inv →
    (s.regCount.toNat ≠ s.params.nDev →
      s.regCount.toNat < s.devs.length ∧
      exec (.register a w r) s = .next
        { s with
          devs := s.devs.set s.regCount.toNat
            { addr7 := a, wbase := w, rbase := r, nsend := 0, nread := 0, wcount := 0, rcount := 0, state := .idle
              finished := false, result := .ok, rspend := false, genrs := false }
          regCount := s.regCount + 1
          response := some (0x0#4 ++ (s.regCount ++ 0#52)) }) ∧
    (s.regCount.toNat = s.params.nDev →
      exec (.register a w r) s = .next { s with response := some 0x5000000000000000#64 })

/-- R207: ACK_RESULT clears `finished` and `result` of a device that is not in progress, and nothing else. -/
def Obligations.AckResultClearsResult : Prop :=
  ∀ (s : State) (dev : Handle), dev < s.regCount → (s.dev dev).state ≠ .inProgress →
    exec (.ackResult dev) s = .next
      { s with
        devs := s.devs.set dev.toNat { s.dev dev with finished := false, result := .ok }
        response := some (0x0#4 ++ (dev ++ 0#52)) }

/-- R208: WRITE_PERIOD writes `period` only. -/
def Obligations.WritePeriodWritesPeriodOnly : Prop :=
  ∀ (s : State) (p : Half),
    exec (.writePeriod p) s = .next
      { s with timer := { s.timer with period := p }, response := some 0x0000000000000000#64 }

/-- R196, R195: QUEUE records the request and starts nothing. -/
def Obligations.QueueRecordsRequest : Prop :=
  ∀ (s : State) (dev : Handle) (rs : Bool) (ns nr : Half), dev < s.regCount → (s.dev dev).state = .idle →
    exec (.queue dev rs ns nr) s = .next
      { s with
        devs := s.devs.set dev.toNat
          { s.dev dev with nsend := ns, nread := nr, genrs := rs, wcount := 0, rcount := 0, finished := false
                           result := .ok, state := .requested }
        response := some (0x0#4 ++ (dev ++ 0#52)) }

/-- R213, R254: a handle that names no device is refused first, by every command with a DEV operand. -/
def Obligations.UnregisteredHandleIsRefused : Prop :=
  ∀ (s : State) (dev : Handle) (rs : Bool) (ns nr : Half), ¬ dev < s.regCount →
    exec (.beginTransfer dev rs ns nr) s = .next { s with response := some 0x4000000000000000#64 } ∧
    exec (.queue dev rs ns nr) s = .next { s with response := some 0x4000000000000000#64 } ∧
    exec (.isFinished dev) s = .next { s with response := some 0x4000000000000000#64 } ∧
    exec (.getCounts dev) s = .next { s with response := some 0x4000000000000000#64 } ∧
    exec (.ackResult dev) s = .next { s with response := some 0x4000000000000000#64 }

/-- R253's DEVICE_BUSY rows: BEGIN while busy, QUEUE on a device not idle, ACK_RESULT on the device in progress. -/
def Obligations.BusyDeviceIsRefused : Prop :=
  ∀ (s : State) (dev : Handle) (rs : Bool) (ns nr : Half), dev < s.regCount →
    (s.busy = true →
      exec (.beginTransfer dev rs ns nr) s = .next { s with response := some 0x1000000000000000#64 }) ∧
    ((s.dev dev).state ≠ .idle →
      exec (.queue dev rs ns nr) s = .next { s with response := some 0x1000000000000000#64 }) ∧
    ((s.dev dev).state = .inProgress →
      exec (.ackResult dev) s = .next { s with response := some 0x1000000000000000#64 })

/-- R204, R87: IS_FINISHED changes nothing and reports the descriptor, every bit not named being 0. -/
def Obligations.IsFinishedReportsResult : Prop :=
  ∀ (s : State) (dev : Handle), dev < s.regCount → ∃ r : Word,
    exec (.isFinished dev) s = .next { s with response := some r } ∧
    r.extractLsb' 60 4 = 0 ∧ r.extractLsb' 52 8 = dev ∧
    r.getLsbD 48 = (s.dev dev).finished ∧ r.extractLsb' 44 4 = (s.dev dev).result.code ∧
    r.extractLsb' 40 2 = (s.dev dev).state.code ∧ r.getLsbD 36 = (s.dev dev).rspend ∧
    r.getLsbD 32 = (s.dev dev).genrs ∧ r.extractLsb' 49 3 = 0 ∧ r.extractLsb' 42 2 = 0 ∧ r.extractLsb' 37 3 = 0 ∧
    r.extractLsb' 33 3 = 0 ∧ r.extractLsb' 0 32 = 0

/-- R205, R88: GET_COUNTS changes nothing and reports the cursors. -/
def Obligations.GetCountsReportsCursors : Prop :=
  ∀ (s : State) (dev : Handle), dev < s.regCount → ∃ r : Word,
    exec (.getCounts dev) s = .next { s with response := some r } ∧
    r.extractLsb' 60 4 = 0 ∧ r.extractLsb' 52 8 = dev ∧ r.extractLsb' 16 16 = (s.dev dev).wcount ∧
    r.extractLsb' 0 16 = (s.dev dev).rcount ∧ r.extractLsb' 32 20 = 0

/-- R206, R89: IS_BUS_IDLE reports the inverse of `busy`. -/
def Obligations.IsBusIdleReportsNotBusy : Prop :=
  ∀ s : State,
    exec .isBusIdle s =
      .next { s with response := some (if s.busy = true then 0x0000000000000000#64 else 0x0000000000000001#64) }

/-- R209, R95: READ_STATUS changes nothing and reports the STATUS view, with EV = 7 and TO = 0. -/
def Obligations.ReadStatusReportsRegisters : Prop :=
  ∀ s : State, ∃ r : Word,
    exec .readStatus s = .next { s with response := some r } ∧
    r.extractLsb' 60 4 = 0 ∧ r.extractLsb' 52 8 = s.active ∧ r.extractLsb' 44 8 = s.cursor ∧
    r.extractLsb' 36 8 = s.regCount ∧ r.extractLsb' 33 3 = s.fsm.code ∧ r.getLsbD 32 = s.busy ∧
    r.extractLsb' 26 6 = s.shadow ∧ r.getLsbD 25 = s.timer.start ∧ r.getLsbD 24 = s.timer.active ∧
    r.getLsbD 23 = s.timer.expired ∧ r.getLsbD 22 = s.timer.exhausted ∧ r.extractLsb' 19 3 = 7 ∧
    r.getLsbD 18 = false ∧ r.extractLsb' 0 18 = 0

/-- R210, R96: READ_TIMER changes nothing and reports the TIMER view. -/
def Obligations.ReadTimerReportsTimer : Prop :=
  ∀ s : State, ∃ r : Word,
    exec .readTimer s = .next { s with response := some r } ∧
    r.extractLsb' 60 4 = 0 ∧ r.extractLsb' 48 12 = 0 ∧ r.extractLsb' 32 16 = s.timer.period ∧
    r.extractLsb' 16 16 = s.timer.count ∧ r.extractLsb' 8 8 = s.timer.retryBudget ∧ r.extractLsb' 4 4 = 0 ∧
    r.getLsbD 3 = s.timer.start ∧ r.getLsbD 2 = s.timer.active ∧ r.getLsbD 1 = s.timer.expired ∧
    r.getLsbD 0 = s.timer.exhausted

/-! ## BEGIN -/

/-- R194, R195, R127: BEGIN on an idle block issues a START, when the device holds no repeated start. -/
def Obligations.BeginIssuesStart : Prop :=
  ∀ (s : State) (dev : Handle) (rs : Bool) (ns nr : Half), s.Inv → dev < s.regCount → s.busy = false →
    (s.dev dev).rspend = false →
    exec (.beginTransfer dev rs ns nr) s = .next
      { s with
        devs := s.devs.set dev.toNat
          { s.dev dev with nsend := ns, nread := nr, genrs := rs, wcount := 0, rcount := 0, finished := false
                           result := .ok, state := .inProgress }
        active := dev, busy := true, fsm := .start, shadow := 0b100000#6, timer := s.armedTimer
        periphOut := s.periphOut ++ [⟨.issueStart, 0⟩]
        response := some (0x0#4 ++ (dev ++ 0#52)) }

/-- R194, R195, R128: BEGIN after a repeated start of the device goes straight to the address byte and consumes the flag. -/
def Obligations.BeginAfterRepeatedStartSendsAddress : Prop :=
  ∀ (s : State) (dev : Handle) (rs : Bool) (ns nr : Half), s.Inv → dev < s.regCount → s.busy = false →
    (s.dev dev).rspend = true →
    exec (.beginTransfer dev rs ns nr) s = .next
      { s with
        devs := s.devs.set dev.toNat
          { s.dev dev with nsend := ns, nread := nr, genrs := rs, wcount := 0, rcount := 0, finished := false
                           result := .ok, state := .inProgress, rspend := false }
        active := dev, busy := true, fsm := .writeAddress, shadow := 0b000010#6, timer := s.armedTimer
        periphOut := s.periphOut ++
          [⟨.transmit, (s.dev dev).addr7 ++ (if ns = 0 ∧ 0 < nr then 1#1 else 0#1)⟩]
        response := some (0x0#4 ++ (dev ++ 0#52)) }

/-! ## POLL in Idle: the scheduler -/

/-- R197, R198: the first eligible device from `cursor` on, in cyclic order, is started. -/
def Obligations.PollStartsFirstEligibleDevice : Prop :=
  ∀ (s : State) (k : Nat) (j : Handle), s.Inv → s.fsm = .idle → k < s.regCount.toNat →
    j.toNat = (s.cursor.toNat + k) % s.regCount.toNat → s.MayStart j.toNat →
    (∀ k' < k, ¬ s.MayStart ((s.cursor.toNat + k') % s.regCount.toNat)) → ∃ r : Word,
    r.extractLsb' 19 3 = 0 ∧ r.getLsbD 18 = false ∧
    ((s.dev j).rspend = false → exec .poll s = .next
      { s with
        cursor := j, active := j, busy := true, devs := s.devs.set j.toNat { s.dev j with state := .inProgress }
        fsm := .start, shadow := 0b100000#6, timer := s.armedTimer, periphOut := s.periphOut ++ [⟨.issueStart, 0⟩]
        response := some r }) ∧
    ((s.dev j).rspend = true → exec .poll s = .next
      { s with
        cursor := j, active := j, busy := true
        devs := s.devs.set j.toNat { s.dev j with state := .inProgress, rspend := false }
        fsm := .writeAddress, shadow := 0b000010#6, timer := s.armedTimer
        periphOut := s.periphOut ++
          [⟨.transmit, (s.dev j).addr7 ++ (if (s.dev j).nsend = 0 ∧ 0 < (s.dev j).nread then 1#1 else 0#1)⟩]
        response := some r })

/-- R301: in a settled state POLL changes no register, and answers EV = 7 and TO = 0. -/
def Obligations.PollLeavesSettledState : Prop :=
  ∀ s : State, s.Settled → ∃ r : Word,
    exec .poll s = .next { s with response := some r } ∧ r.extractLsb' 19 3 = 7 ∧ r.getLsbD 18 = false

/-! ## POLL outside Idle: the timer -/

/-- R162 to R165: the adapter picks the firing bit with the highest index. -/
def Obligations.AdapterPicksHighestFiringBit : Prop :=
  ∀ (shadow : BitVec 6) (x : PeriphInputs) (b : Nat),
    let fire : Nat → Prop := fun i =>
      shadow.getLsbD i = true ∧ x.live.getLsbD i = false ∧ (i = 1 → x.trf = false) ∧ (i = 0 → x.rda = true)
    firingBit shadow x = some b ↔ fire b ∧ ∀ i, b < i → ¬ fire i

/-- R200, R178, R202: a POLL in which no outstanding action completes, with time left, takes one from `count` and does nothing
else. -/
def Obligations.PollCountsDown : Prop :=
  ∀ s : State, s.Inv → s.fsm ≠ .idle → nothingCompletes s.shadow s.inputs → 1 < s.timer.count → ∃ r : Word,
    exec .poll s = .next { s with timer := { s.timer with count := s.timer.count - 1 }, response := some r } ∧
    r.extractLsb' 19 3 = 7 ∧ r.getLsbD 18 = false

/-- R178, R179, R145, R202: an expiry with budget left, in a POLL in which no outstanding action completes, reloads the
countdown, shows TIMEOUT and moves nothing. -/
def Obligations.PollReportsTimeout : Prop :=
  ∀ s : State, s.Inv → s.fsm ≠ .idle → nothingCompletes s.shadow s.inputs → s.timer.count ≤ 1 →
    s.timer.retryBudget ≠ 1 →
    ∃ r : Word,
      exec .poll s = .next
        { s with
          timer := { s.timer with count := s.timer.period, retryBudget := s.timer.retryBudget - 1, expired := true }
          response := some r } ∧
      r.extractLsb' 19 3 = 4 ∧ r.getLsbD 18 = true

/-- R201, R255, R256, R257, R180: the tick that exhausts the budget aborts, whatever the peripheral shows in that step, and
issues no command. -/
def Obligations.PollAbortsOnExhaustion : Prop :=
  ∀ s : State, s.Inv → s.fsm ≠ .idle → s.timer.count ≤ 1 → s.timer.retryBudget = 1 →
    let devs := s.devs.set s.active.toNat
      { s.dev s.active with finished := true, result := .retryExhausted, state := .idle, rspend := false, genrs := false }
    ∃ r : Word,
      exec .poll s = .next
        { s with
          fsm := .idle, busy := false, shadow := 0, devs := devs
          cursor := ({ s with devs := devs } : State).nextCursor s.active
          timer := { s.timer with count := 0, retryBudget := 0, active := false, expired := true, exhausted := true }
          response := some r } ∧
      r.extractLsb' 19 3 = 5 ∧ r.getLsbD 18 = true

/-- R212: the first requested device after `a` in cyclic order, or else the slot after `a`. -/
def Obligations.NextCursorFindsPendingWork : Prop :=
  ∀ (s : State) (a : Handle), s.regCount ≠ 0 →
    (∀ k, 1 ≤ k → k ≤ s.regCount.toNat → (s.devAt ((a.toNat + k) % s.regCount.toNat)).state = .requested →
      (∀ k', 1 ≤ k' → k' < k → (s.devAt ((a.toNat + k') % s.regCount.toNat)).state ≠ .requested) →
      (s.nextCursor a).toNat = (a.toNat + k) % s.regCount.toNat) ∧
    ((∀ j < s.regCount.toNat, (s.devAt j).state ≠ .requested) →
      (s.nextCursor a).toNat = (a.toNat + 1) % s.regCount.toNat)

/-! ## POLL outside Idle: the transitions -/

/-- R129: Start on BUS_IDLE transmits the address byte. -/
def Obligations.StartDoneSendsAddress : Prop :=
  ∀ s : State, s.Inv → s.TickSurvives → s.fsm = .start → s.inputs.live.getLsbD 5 = false → ∃ r : Word,
    exec .poll s = .next
      { s with
        fsm := .writeAddress, shadow := 0b000010#6, timer := s.armedTimer
        periphOut := s.periphOut ++
          [⟨.transmit, (s.dev s.active).addr7 ++
            (if (s.dev s.active).nsend = 0 ∧ 0 < (s.dev s.active).nread then 1#1 else 0#1)⟩]
        response := some r } ∧
    r.extractLsb' 19 3 = 1

/-- R130: an acknowledged read address enables the receiver. -/
def Obligations.AddressAckedReadEnablesReceiver : Prop :=
  ∀ s : State, s.Inv → s.TickSurvives → s.fsm = .writeAddress → s.inputs.live.getLsbD 1 = false → s.inputs.trf = false →
    s.inputs.ackstat = true → (s.dev s.active).nsend = 0 → (s.dev s.active).nread ≠ 0 → ∃ r : Word,
    exec .poll s = .next
      { s with
        fsm := .readData, shadow := 0b000001#6, timer := s.armedTimer, periphOut := s.periphOut ++ [⟨.enableRx, 0⟩]
        response := some r } ∧
    r.extractLsb' 19 3 = 1

/-- R131: an acknowledged write address transmits the first byte of the write buffer. -/
def Obligations.AddressAckedWriteSendsFirstByte : Prop :=
  ∀ s : State, s.Inv → s.TickSurvives → s.fsm = .writeAddress → s.inputs.live.getLsbD 1 = false → s.inputs.trf = false →
    s.inputs.ackstat = true → (s.dev s.active).nsend ≠ 0 → ∃ r : Word,
    exec .poll s = .next
      { s with
        fsm := .writeData, shadow := 0b000010#6, timer := s.armedTimer
        periphOut := s.periphOut ++ [⟨.transmit, s.readByte (s.dev s.active).wbase⟩]
        memOps := s.memOps ++ [.read (s.dev s.active).wbase (s.readByte (s.dev s.active).wbase)]
        response := some r } ∧
    r.extractLsb' 19 3 = 1

/-- R132, R133: an acknowledged address with nothing to send or read ends at once, with RESTART or STOP. -/
def Obligations.AddressAckedProbeEnds : Prop :=
  ∀ s : State, s.Inv → s.TickSurvives → s.fsm = .writeAddress → s.inputs.live.getLsbD 1 = false → s.inputs.trf = false →
    s.inputs.ackstat = true → (s.dev s.active).nsend = 0 → (s.dev s.active).nread = 0 → ∃ r : Word,
    r.extractLsb' 19 3 = 1 ∧
    ((s.dev s.active).genrs = true → exec .poll s = .next
      { s with
        fsm := .restart, shadow := 0b010000#6, timer := s.armedTimer, periphOut := s.periphOut ++ [⟨.issueRestart, 0⟩]
        response := some r }) ∧
    ((s.dev s.active).genrs = false → exec .poll s = .next
      { s with
        fsm := .stop, shadow := 0b001000#6, timer := s.armedTimer, periphOut := s.periphOut ++ [⟨.issueStop, 0⟩]
        response := some r })

/-- R134: an address not acknowledged records ADDRESS_NACK and issues STOP, in either direction. -/
def Obligations.AddressNackRecordsAndStops : Prop :=
  ∀ s : State, s.Inv → s.TickSurvives → s.fsm = .writeAddress → s.inputs.live.getLsbD 1 = false → s.inputs.trf = false →
    s.inputs.ackstat = false → ∃ r : Word,
    exec .poll s = .next
      { s with
        fsm := .stop, shadow := 0b001000#6, timer := s.armedTimer
        devs := s.devs.set s.active.toNat { s.dev s.active with result := .addressNack }
        periphOut := s.periphOut ++ [⟨.issueStop, 0⟩], response := some r } ∧
    r.extractLsb' 19 3 = 1

/-- R135: an acknowledged data byte with more to come moves the cursor and transmits the next byte. -/
def Obligations.DataAckedSendsNextByte : Prop :=
  ∀ s : State, s.Inv → s.TickSurvives → s.fsm = .writeData → s.shadow = 0b000010#6 → s.inputs.live.getLsbD 1 = false →
    s.inputs.trf = false → s.inputs.ackstat = true → (s.dev s.active).wcount + 1 < (s.dev s.active).nsend →
    let a := (s.dev s.active).wbase + ((s.dev s.active).wcount + 1)
    ∃ r : Word,
      exec .poll s = .next
        { s with
          shadow := 0b000010#6, timer := s.armedTimer
          devs := s.devs.set s.active.toNat { s.dev s.active with wcount := (s.dev s.active).wcount + 1 }
          periphOut := s.periphOut ++ [⟨.transmit, s.readByte a⟩]
          memOps := s.memOps ++ [.read a (s.readByte a)], response := some r } ∧
      r.extractLsb' 19 3 = 1

/-- R136, R137: the last data byte acknowledged ends the write, with RESTART or STOP. -/
def Obligations.LastDataAckedEndsWrite : Prop :=
  ∀ s : State, s.Inv → s.TickSurvives → s.fsm = .writeData → s.shadow = 0b000010#6 → s.inputs.live.getLsbD 1 = false →
    s.inputs.trf = false → s.inputs.ackstat = true → (s.dev s.active).wcount + 1 = (s.dev s.active).nsend →
    let devs := s.devs.set s.active.toNat { s.dev s.active with wcount := (s.dev s.active).wcount + 1 }
    ∃ r : Word, r.extractLsb' 19 3 = 1 ∧
      ((s.dev s.active).genrs = true → exec .poll s = .next
        { s with
          fsm := .restart, shadow := 0b010000#6, timer := s.armedTimer, devs := devs
          periphOut := s.periphOut ++ [⟨.issueRestart, 0⟩], response := some r }) ∧
      ((s.dev s.active).genrs = false → exec .poll s = .next
        { s with
          fsm := .stop, shadow := 0b001000#6, timer := s.armedTimer, devs := devs
          periphOut := s.periphOut ++ [⟨.issueStop, 0⟩], response := some r })

/-- R138: a data byte not acknowledged: the signal is lost, the shadow bit is clear, and the timer goes on with its tick. -/
def Obligations.DataNackOnlyClearsShadow : Prop :=
  ∀ s : State, s.Inv → s.fsm = .writeData → s.shadow = 0b000010#6 → s.inputs.live.getLsbD 1 = false →
    s.inputs.trf = false → s.inputs.ackstat = false → ∃ r : Word, r.extractLsb' 19 3 = 1 ∧
    (1 < s.timer.count → exec .poll s = .next
      { s with shadow := 0, timer := { s.timer with count := s.timer.count - 1 }, response := some r }) ∧
    (s.timer.count ≤ 1 → s.timer.retryBudget ≠ 1 → exec .poll s = .next
      { s with
        shadow := 0
        timer := { s.timer with count := s.timer.period, retryBudget := s.timer.retryBudget - 1, expired := true }
        response := some r })

/-- R139, R123: the repeated start has completed: the segment ends, finished, with the bus held. -/
def Obligations.RestartDoneEndsSegment : Prop :=
  ∀ s : State, s.Inv → s.TickSurvives → s.fsm = .restart → s.inputs.live.getLsbD 4 = false →
    let devs := s.devs.set s.active.toNat
      { s.dev s.active with rspend := true, genrs := false, finished := true, state := .idle }
    ∃ r : Word,
      exec .poll s = .next
        { s with
          fsm := .idle, busy := false, shadow := 0, devs := devs
          cursor := ({ s with devs := devs } : State).nextCursor s.active
          timer := { s.timer with
            count := if 1 < s.timer.count then s.timer.count - 1 else s.timer.period
            retryBudget := if 1 < s.timer.count then s.timer.retryBudget else s.timer.retryBudget - 1
            start := false, active := false, expired := false, exhausted := false }
          response := some r } ∧
      r.extractLsb' 19 3 = 1

/-- R140, R123: the stop condition has completed: the device is finished, its result left as it stands. -/
def Obligations.StopDoneFinishesDevice : Prop :=
  ∀ s : State, s.Inv → s.TickSurvives → s.fsm = .stop → s.inputs.live.getLsbD 3 = false →
    let devs := s.devs.set s.active.toNat { s.dev s.active with finished := true, state := .idle }
    ∃ r : Word,
      exec .poll s = .next
        { s with
          fsm := .idle, busy := false, shadow := 0, devs := devs
          cursor := ({ s with devs := devs } : State).nextCursor s.active
          timer := { s.timer with
            count := if 1 < s.timer.count then s.timer.count - 1 else s.timer.period
            retryBudget := if 1 < s.timer.count then s.timer.retryBudget else s.timer.retryBudget - 1
            start := false, active := false, expired := false, exhausted := false }
          response := some r } ∧
      r.extractLsb' 19 3 = 1

/-- R141: a received byte is stored at the read cursor and acknowledged while bytes remain; every other byte of the buffer
memory reads as before. -/
def Obligations.ReceivedByteIsStoredAndAcked : Prop :=
  ∀ s : State, s.Inv → s.TickSurvives → s.fsm = .readData → s.shadow = 0b000001#6 → s.inputs.live.getLsbD 0 = false →
    s.inputs.rda = true →
    let d := s.dev s.active
    let a := d.rbase + d.rcount
    ∃ (r : Word) (m : Memory),
      exec .poll s = .next
        { s with
          shadow := 0b000100#6, timer := s.armedTimer, mem := m
          devs := s.devs.set s.active.toNat { d with rcount := d.rcount + 1 }
          periphOut := s.periphOut ++ [⟨.readRx, 0⟩, ⟨.sendAck, if d.rcount + 1 < d.nread then 1 else 0⟩]
          memOps := s.memOps ++ [.write a s.inputs.rxdata], response := some r } ∧
      (∀ b : Half, ({ s with mem := m } : State).readByte b = if b = a then s.inputs.rxdata else s.readByte b) ∧
      r.extractLsb' 19 3 = 3

/-- R142, R143: the acknowledge sent, the next byte is received, or after the last one STOP is issued. -/
def Obligations.AckDoneReceivesNextOrStops : Prop :=
  ∀ s : State, s.Inv → s.TickSurvives → s.fsm = .readData → s.shadow = 0b000100#6 → s.inputs.live.getLsbD 2 = false →
    ∃ r : Word, r.extractLsb' 19 3 = 1 ∧
      ((s.dev s.active).rcount < (s.dev s.active).nread → exec .poll s = .next
        { s with
          shadow := 0b000001#6, timer := s.armedTimer, periphOut := s.periphOut ++ [⟨.enableRx, 0⟩]
          response := some r }) ∧
      ((s.dev s.active).rcount = (s.dev s.active).nread → exec .poll s = .next
        { s with
          fsm := .stop, shadow := 0b001000#6, timer := s.armedTimer, periphOut := s.periphOut ++ [⟨.issueStop, 0⟩]
          response := some r })

/-! ## Rules of the whole machine -/

/-- R191, R85, R269: every command, in every state, answers a next state with one response, and no step stops. -/
def Obligations.EveryCommandResponds : Prop :=
  (∀ (i : Instr) (s : State), ∃ (t : State) (r : Word), exec i s = .next t ∧ t.response = some r) ∧
  ∀ s : State, ∃ t, step s = .next t

/-- R203, R95, R202, R178: the response of POLL is the STATUS view of the state after all its phases, its status is always OK,
and TO reports this POLL's expiry, whatever else the POLL delivers. -/
def Obligations.PollReportsStateAfter : Prop :=
  ∀ s : State, ∃ (t : State) (r : Word),
    exec .poll s = .next t ∧ t.response = some r ∧
    r.extractLsb' 60 4 = 0 ∧ r.extractLsb' 52 8 = t.active ∧ r.extractLsb' 44 8 = t.cursor ∧
    r.extractLsb' 36 8 = t.regCount ∧ r.extractLsb' 33 3 = t.fsm.code ∧ r.getLsbD 32 = t.busy ∧
    r.extractLsb' 26 6 = t.shadow ∧ r.getLsbD 25 = t.timer.start ∧ r.getLsbD 24 = t.timer.active ∧
    r.getLsbD 23 = t.timer.expired ∧ r.getLsbD 22 = t.timer.exhausted ∧ r.extractLsb' 0 18 = 0 ∧
    (r.getLsbD 18 = true ↔ s.fsm ≠ .idle ∧ s.timer.active = true ∧ s.timer.count ≤ 1)

/-- R251: a command that responds with an error has changed nothing, and its payload is 0. -/
def Obligations.ErrorResponseChangesNothing : Prop :=
  ∀ (i : Instr) (s t : State) (r : Word), exec i s = .next t → t.response = some r → r.extractLsb' 60 4 ≠ 0 →
    t = { s with response := some r } ∧ r.extractLsb' 0 60 = 0

/-- R232, R233, R240: what a step may emit. -/
def Obligations.CommandsEmittedPerStep : Prop :=
  ∀ (i : Instr) (s t : State), exec i s = .next t → ∃ l : List PeriphCmd,
    t.periphOut = s.periphOut ++ l ∧ l.length ≤ 2 ∧ (i.op ≠ 0x2 → i.op ≠ 0x4 → l = []) ∧
    (l.length = 2 → s.fsm = .readData ∧ l.map PeriphCmd.code = [.readRx, .sendAck]) ∧
    ∀ c ∈ l, c.code ≠ .disableRx ∧ (c.code ≠ .sendAck → c.code ≠ .transmit → c.data = 0)

/-- R65, R66: only POLL reaches the buffer memory, once a step at most, at the active device's cursors, and only the store
of a received byte changes a byte. -/
def Obligations.BufferAccessesPerStep : Prop :=
  ∀ (i : Instr) (s t : State), s.Inv → exec i s = .next t →
    (t.memOps = s.memOps ∧ ∀ a : Half, t.readByte a = s.readByte a) ∨
    i = .poll ∧ s.fsm ≠ .idle ∧
      ((∃ a : Half, a = (t.dev s.active).wbase + (t.dev s.active).wcount ∧
          t.memOps = s.memOps ++ [.read a (s.readByte a)] ∧ ∀ b : Half, t.readByte b = s.readByte b) ∨
       (∃ a : Half, a = (s.dev s.active).rbase + (s.dev s.active).rcount ∧
          t.memOps = s.memOps ++ [.write a s.inputs.rxdata] ∧
          ∀ b : Half, t.readByte b = if b = a then s.inputs.rxdata else s.readByte b))

/-- R27, R28, R37: who writes the registry's size, a device's address and bases, and the period. That the parameters, the
coming events and the sampled inputs are fields of the state that no command writes is the model's (logs 1, 3 and 4; R41,
R16). -/
def Obligations.ConfigurationFrame : Prop :=
  ∀ (i : Instr) (s t : State), s.Inv → exec i s = .next t →
    t.params = s.params ∧ t.events = s.events ∧ t.inputs = s.inputs ∧
    (i.op ≠ 0x1 → t.regCount = s.regCount) ∧ (i.op ≠ 0x9 → t.timer.period = s.timer.period) ∧
    ∀ j < s.regCount.toNat, (t.devAt j).addr7 = (s.devAt j).addr7 ∧ (t.devAt j).wbase = (s.devAt j).wbase ∧
      (t.devAt j).rbase = (s.devAt j).rbase

/-- R22, R24, R25, R26, R167: only BEGIN and POLL move the transaction state, the shadow, the active device, `busy` and the
timer; only POLL moves the cursor. -/
def Obligations.TransactionFrame : Prop :=
  ∀ (i : Instr) (s t : State), exec i s = .next t → i ≠ .poll →
    t.cursor = s.cursor ∧
    (i.op ≠ 0x2 →
      t.fsm = s.fsm ∧ t.shadow = s.shadow ∧ t.active = s.active ∧ t.busy = s.busy ∧
      { t.timer with period := s.timer.period } = s.timer)

/-- R251, R258, R259: a command writes at most the descriptor of the one device it names, POLL at most the active device's;
every other registered device keeps its whole descriptor. -/
def Obligations.OtherDevicesUntouched : Prop :=
  ∀ (i : Instr) (s t : State), s.Inv → exec i s = .next t → ∀ j < s.regCount.toNat,
    (∀ h, touchedDevice i t = some h → j ≠ h.toNat) → t.devAt j = s.devAt j

/-- R231: every command but POLL ignores the peripheral inputs. -/
def Obligations.OnlyPollReadsInputs : Prop :=
  ∀ (i : Instr) (s : State) (x : PeriphInputs), i ≠ .poll →
    exec i (s.withInputs x) = outcomeWithInputs x (exec i s)

/-- R242 to R244, R161, R168, R241: of its inputs POLL reads the live bits whose shadow bit is set, TRF for a transmit, RDA
for a receive, ACKSTAT in WriteAddress and WriteData, and RXDATA in ReadData. -/
def Obligations.PollReadsOnlyNamedInputs : Prop :=
  ∀ (s : State) (x : PeriphInputs),
    (s.fsm ≠ .idle → x.live &&& s.shadow = s.inputs.live &&& s.shadow) →
    (s.fsm ≠ .idle → s.shadow.getLsbD 1 = true → x.trf = s.inputs.trf) →
    (s.fsm ≠ .idle → s.shadow.getLsbD 0 = true → x.rda = s.inputs.rda) →
    (s.fsm = .writeAddress ∨ s.fsm = .writeData → x.ackstat = s.inputs.ackstat) →
    (s.fsm = .readData → x.rxdata = s.inputs.rxdata) →
    exec .poll (s.withInputs x) = outcomeWithInputs x (exec .poll s)

/-- R126: every bus command starts with a full countdown. -/
def Obligations.BusCommandStartsFullCountdown : Prop :=
  ∀ (i : Instr) (s t : State) (l : List PeriphCmd) (c : PeriphCmd), s.Inv → exec i s = .next t →
    t.periphOut = s.periphOut ++ l → c ∈ l → c.code ≠ .readRx →
    t.timer = s.armedTimer ∧ t.fsm ≠ .idle

/-! ## Invariants and headline statements -/

/-- 10_state.md section 8: reset, with any legal parameters, meets the invariant. -/
def Obligations.ResetMeetsInvariant : Prop := ∀ p : Params, p.Legal → (State.resetWith p).Inv

/-- R48 to R52, R26, R178, and the canonical form of the buffer memory: every step of every event keeps them. -/
def Obligations.StepKeepsInvariant : Prop := ∀ s t : State, s.Inv → step s = .next t → t.Inv

/-- R183, R138, R296: after an action issued with a full countdown, if no signal arrives that the FSM consumes (live bits held
at 1, TRF held at 1, RDA held at 0, or a data byte not acknowledged), exactly the RETRY_BUDGET × P'-th POLL aborts; the last
POLL's inputs do not matter (R201). The counts show how far the transaction got (R256). -/
def Obligations.UnfinishedActionAbortsOnTime : Prop :=
  ∀ (s : State) (xs : List PeriphInputs) (rest : List Event), s.Inv → s.fsm ≠ .idle → s.timer = s.armedTimer →
    xs.length = s.params.retryBudget.toNat * s.timer.spacing → s.Unconsumed xs.dropLast →
    s.events = xs.map pollEvent ++ rest →
    (∀ k < xs.length, ∃ t, Sys2Proof.core.run k s = .next t ∧ t.fsm = s.fsm ∧ t.busy = true) ∧
    ∃ t, Sys2Proof.core.run xs.length s = .next t ∧ t.fsm = .idle ∧ t.busy = false ∧ t.events = rest ∧
      (t.dev s.active).finished = true ∧ (t.dev s.active).result = .retryExhausted ∧
      (t.dev s.active).wcount = (s.dev s.active).wcount ∧ (t.dev s.active).rcount = (s.dev s.active).rcount

/-- R298, R152 and R67: under the reference stub a write of N ≥ 1 bytes takes N + 3 POLLs after its BEGIN, and sends the bytes of
the write buffer in order. RETRY_BUDGET × P' must leave a POLL in which a completion can be seen (R185). -/
def Obligations.WriteUnderStubTakesNPlusThreePolls : Prop :=
  ∀ (s : State) (dev : Handle) (rs : Bool) (ns nr : Half) (x : PeriphInputs) (bytes : List Byte) (rest : List Event),
    s.Inv → s.busy = false → dev < s.regCount → (s.dev dev).rspend = false → ns ≠ 0 →
    2 ≤ s.params.retryBudget.toNat * s.timer.spacing → bytes.length = ns.toNat + 3 →
    s.events = .command (encode (.beginTransfer dev rs ns nr)) x ::
      bytes.map (fun b => pollEvent (PeriphInputs.stub b)) ++ rest →
    (∀ k < ns.toNat + 3, ∃ t, Sys2Proof.core.run (k + 1) s = .next t ∧ t.fsm ≠ .idle) ∧
    (∀ k < ns.toNat, ∃ t, Sys2Proof.core.run (k + 3) s = .next t ∧
      t.periphOut = [⟨.transmit, s.readByte ((s.dev dev).wbase + BitVec.ofNat 16 k)⟩]) ∧
    ∃ t, Sys2Proof.core.run (ns.toNat + 4) s = .next t ∧ t.fsm = .idle ∧ t.busy = false ∧ t.events = rest ∧
      (t.dev dev).finished = true ∧ (t.dev dev).result = .ok ∧ (t.dev dev).wcount = ns ∧ (t.dev dev).rspend = rs ∧
      ∀ a : Half, t.readByte a = s.readByte a

/-- R298, R152, R67 and R80: under the reference stub a read of M ≥ 1 bytes takes 2M + 3 POLLs after its BEGIN, and stores the
bytes received, in order, in exactly the M bytes of the read buffer. -/
def Obligations.ReadUnderStubTakesTwoMPlusThreePolls : Prop :=
  ∀ (s : State) (dev : Handle) (rs : Bool) (nr : Half) (x : PeriphInputs) (bytes : List Byte) (rest : List Event),
    s.Inv → s.busy = false → dev < s.regCount → (s.dev dev).rspend = false → nr ≠ 0 →
    2 ≤ s.params.retryBudget.toNat * s.timer.spacing → bytes.length = 2 * nr.toNat + 3 →
    s.events = .command (encode (.beginTransfer dev rs 0 nr)) x ::
      bytes.map (fun b => pollEvent (PeriphInputs.stub b)) ++ rest →
    (∀ k < 2 * nr.toNat + 3, ∃ t, Sys2Proof.core.run (k + 1) s = .next t ∧ t.fsm ≠ .idle) ∧
    ∃ t, Sys2Proof.core.run (2 * nr.toNat + 4) s = .next t ∧ t.fsm = .idle ∧ t.busy = false ∧ t.events = rest ∧
      (t.dev dev).finished = true ∧ (t.dev dev).result = .ok ∧ (t.dev dev).rcount = nr ∧
      (∀ k < nr.toNat, t.readByte ((s.dev dev).rbase + BitVec.ofNat 16 k) = bytes.getD (2 * k + 2) 0) ∧
      ∀ a : Half, (∀ k < nr.toNat, a ≠ (s.dev dev).rbase + BitVec.ofNat 16 k) → t.readByte a = s.readByte a

/-- R302: a host that only POLLs reaches a settled state within the stated number of POLLs, whatever the peripheral does. A
countdown in progress must not be longer than the period (R302 rests on R183, "if period is not changed meanwhile"). -/
def Obligations.PollOnlyRunSettles : Prop :=
  ∀ (s : State) (xs : List PeriphInputs), s.Inv → (s.busy = true → s.timer.count.toNat ≤ s.timer.spacing) →
    s.settleBound ≤ xs.length → s.events = xs.map pollEvent →
    ∃ k ≤ s.settleBound, ∃ t, Sys2Proof.core.run k s = .next t ∧ t.Settled
end

