-- ==== Sys2Proof/Laws/Bits.lean ====
section
/-! SUPPORT. Fields of concatenated bit vectors. The formats and views are concatenations whose total width is written as one
number, where the library's lemmas want the sum of the parts; the lemmas below are the library's at the widths used. -/

namespace Sys2Proof.Bits

/-- A field of the lower part. -/
theorem lower {a b : Nat} (x : BitVec a) (y : BitVec b) {s n : Nat} (h : s + n ≤ b) :
    (x ++ y).extractLsb' s n = y.extractLsb' s n := by
  ext i hi
  have h2 : s + i < b := by omega
  simp [BitVec.getLsbD_append, h2]

/-- A field of the upper part. -/
theorem upper {a b : Nat} (x : BitVec a) (y : BitVec b) {s n : Nat} (h : b ≤ s) :
    (x ++ y).extractLsb' s n = x.extractLsb' (s - b) n := by
  ext i hi
  have h2 : ¬ s + i < b := by omega
  have h3 : s + i - b = s - b + i := by omega
  simp [BitVec.getLsbD_append, h2, h3]

/-- A whole vector is its own field. -/
@[simp] theorem whole {n : Nat} (x : BitVec n) : x.extractLsb' 0 n = x := by
  ext i hi
  simp

@[simp] theorem lower_1_1 (x : BitVec 1) (y : BitVec 1) {s n : Nat} (h : s + n ≤ 1) :
    BitVec.extractLsb' (n := 2) s n (x ++ y) = y.extractLsb' s n := lower x y h
@[simp] theorem upper_1_1 (x : BitVec 1) (y : BitVec 1) {s n : Nat} (h : 1 ≤ s) :
    BitVec.extractLsb' (n := 2) s n (x ++ y) = x.extractLsb' (s - 1) n := upper x y h
@[simp] theorem bit_1_1 (x : BitVec 1) (y : BitVec 1) (i : Nat) :
    BitVec.getLsbD (w := 2) (x ++ y) i = if i < 1 then y.getLsbD i else x.getLsbD (i - 1) :=
  BitVec.getLsbD_append
@[simp] theorem elem_1_1 (x : BitVec 1) (y : BitVec 1) (i : Nat) (hi : i < 2) :
    (GetElem.getElem (coll := BitVec 2) (x ++ y) i hi) = if i < 1 then y.getLsbD i else x.getLsbD (i - 1) := by
  rw [← BitVec.getLsbD_eq_getElem hi, bit_1_1]
@[simp] theorem lower_1_2 (x : BitVec 1) (y : BitVec 2) {s n : Nat} (h : s + n ≤ 2) :
    BitVec.extractLsb' (n := 3) s n (x ++ y) = y.extractLsb' s n := lower x y h
@[simp] theorem upper_1_2 (x : BitVec 1) (y : BitVec 2) {s n : Nat} (h : 2 ≤ s) :
    BitVec.extractLsb' (n := 3) s n (x ++ y) = x.extractLsb' (s - 2) n := upper x y h
@[simp] theorem bit_1_2 (x : BitVec 1) (y : BitVec 2) (i : Nat) :
    BitVec.getLsbD (w := 3) (x ++ y) i = if i < 2 then y.getLsbD i else x.getLsbD (i - 2) :=
  BitVec.getLsbD_append
@[simp] theorem elem_1_2 (x : BitVec 1) (y : BitVec 2) (i : Nat) (hi : i < 3) :
    (GetElem.getElem (coll := BitVec 3) (x ++ y) i hi) = if i < 2 then y.getLsbD i else x.getLsbD (i - 2) := by
  rw [← BitVec.getLsbD_eq_getElem hi, bit_1_2]
@[simp] theorem lower_1_3 (x : BitVec 1) (y : BitVec 3) {s n : Nat} (h : s + n ≤ 3) :
    BitVec.extractLsb' (n := 4) s n (x ++ y) = y.extractLsb' s n := lower x y h
@[simp] theorem upper_1_3 (x : BitVec 1) (y : BitVec 3) {s n : Nat} (h : 3 ≤ s) :
    BitVec.extractLsb' (n := 4) s n (x ++ y) = x.extractLsb' (s - 3) n := upper x y h
@[simp] theorem bit_1_3 (x : BitVec 1) (y : BitVec 3) (i : Nat) :
    BitVec.getLsbD (w := 4) (x ++ y) i = if i < 3 then y.getLsbD i else x.getLsbD (i - 3) :=
  BitVec.getLsbD_append
@[simp] theorem elem_1_3 (x : BitVec 1) (y : BitVec 3) (i : Nat) (hi : i < 4) :
    (GetElem.getElem (coll := BitVec 4) (x ++ y) i hi) = if i < 3 then y.getLsbD i else x.getLsbD (i - 3) := by
  rw [← BitVec.getLsbD_eq_getElem hi, bit_1_3]
@[simp] theorem lower_4_4 (x : BitVec 4) (y : BitVec 4) {s n : Nat} (h : s + n ≤ 4) :
    BitVec.extractLsb' (n := 8) s n (x ++ y) = y.extractLsb' s n := lower x y h
@[simp] theorem upper_4_4 (x : BitVec 4) (y : BitVec 4) {s n : Nat} (h : 4 ≤ s) :
    BitVec.extractLsb' (n := 8) s n (x ++ y) = x.extractLsb' (s - 4) n := upper x y h
@[simp] theorem bit_4_4 (x : BitVec 4) (y : BitVec 4) (i : Nat) :
    BitVec.getLsbD (w := 8) (x ++ y) i = if i < 4 then y.getLsbD i else x.getLsbD (i - 4) :=
  BitVec.getLsbD_append
@[simp] theorem elem_4_4 (x : BitVec 4) (y : BitVec 4) (i : Nat) (hi : i < 8) :
    (GetElem.getElem (coll := BitVec 8) (x ++ y) i hi) = if i < 4 then y.getLsbD i else x.getLsbD (i - 4) := by
  rw [← BitVec.getLsbD_eq_getElem hi, bit_4_4]
@[simp] theorem lower_7_1 (x : BitVec 7) (y : BitVec 1) {s n : Nat} (h : s + n ≤ 1) :
    BitVec.extractLsb' (n := 8) s n (x ++ y) = y.extractLsb' s n := lower x y h
@[simp] theorem upper_7_1 (x : BitVec 7) (y : BitVec 1) {s n : Nat} (h : 1 ≤ s) :
    BitVec.extractLsb' (n := 8) s n (x ++ y) = x.extractLsb' (s - 1) n := upper x y h
@[simp] theorem bit_7_1 (x : BitVec 7) (y : BitVec 1) (i : Nat) :
    BitVec.getLsbD (w := 8) (x ++ y) i = if i < 1 then y.getLsbD i else x.getLsbD (i - 1) :=
  BitVec.getLsbD_append
@[simp] theorem elem_7_1 (x : BitVec 7) (y : BitVec 1) (i : Nat) (hi : i < 8) :
    (GetElem.getElem (coll := BitVec 8) (x ++ y) i hi) = if i < 1 then y.getLsbD i else x.getLsbD (i - 1) := by
  rw [← BitVec.getLsbD_eq_getElem hi, bit_7_1]
@[simp] theorem lower_8_8 (x : BitVec 8) (y : BitVec 8) {s n : Nat} (h : s + n ≤ 8) :
    BitVec.extractLsb' (n := 16) s n (x ++ y) = y.extractLsb' s n := lower x y h
@[simp] theorem upper_8_8 (x : BitVec 8) (y : BitVec 8) {s n : Nat} (h : 8 ≤ s) :
    BitVec.extractLsb' (n := 16) s n (x ++ y) = x.extractLsb' (s - 8) n := upper x y h
@[simp] theorem bit_8_8 (x : BitVec 8) (y : BitVec 8) (i : Nat) :
    BitVec.getLsbD (w := 16) (x ++ y) i = if i < 8 then y.getLsbD i else x.getLsbD (i - 8) :=
  BitVec.getLsbD_append
@[simp] theorem elem_8_8 (x : BitVec 8) (y : BitVec 8) (i : Nat) (hi : i < 16) :
    (GetElem.getElem (coll := BitVec 16) (x ++ y) i hi) = if i < 8 then y.getLsbD i else x.getLsbD (i - 8) := by
  rw [← BitVec.getLsbD_eq_getElem hi, bit_8_8]
@[simp] theorem lower_1_18 (x : BitVec 1) (y : BitVec 18) {s n : Nat} (h : s + n ≤ 18) :
    BitVec.extractLsb' (n := 19) s n (x ++ y) = y.extractLsb' s n := lower x y h
@[simp] theorem upper_1_18 (x : BitVec 1) (y : BitVec 18) {s n : Nat} (h : 18 ≤ s) :
    BitVec.extractLsb' (n := 19) s n (x ++ y) = x.extractLsb' (s - 18) n := upper x y h
@[simp] theorem bit_1_18 (x : BitVec 1) (y : BitVec 18) (i : Nat) :
    BitVec.getLsbD (w := 19) (x ++ y) i = if i < 18 then y.getLsbD i else x.getLsbD (i - 18) :=
  BitVec.getLsbD_append
@[simp] theorem elem_1_18 (x : BitVec 1) (y : BitVec 18) (i : Nat) (hi : i < 19) :
    (GetElem.getElem (coll := BitVec 19) (x ++ y) i hi) = if i < 18 then y.getLsbD i else x.getLsbD (i - 18) := by
  rw [← BitVec.getLsbD_eq_getElem hi, bit_1_18]
@[simp] theorem lower_3_19 (x : BitVec 3) (y : BitVec 19) {s n : Nat} (h : s + n ≤ 19) :
    BitVec.extractLsb' (n := 22) s n (x ++ y) = y.extractLsb' s n := lower x y h
@[simp] theorem upper_3_19 (x : BitVec 3) (y : BitVec 19) {s n : Nat} (h : 19 ≤ s) :
    BitVec.extractLsb' (n := 22) s n (x ++ y) = x.extractLsb' (s - 19) n := upper x y h
@[simp] theorem bit_3_19 (x : BitVec 3) (y : BitVec 19) (i : Nat) :
    BitVec.getLsbD (w := 22) (x ++ y) i = if i < 19 then y.getLsbD i else x.getLsbD (i - 19) :=
  BitVec.getLsbD_append
@[simp] theorem elem_3_19 (x : BitVec 3) (y : BitVec 19) (i : Nat) (hi : i < 22) :
    (GetElem.getElem (coll := BitVec 22) (x ++ y) i hi) = if i < 19 then y.getLsbD i else x.getLsbD (i - 19) := by
  rw [← BitVec.getLsbD_eq_getElem hi, bit_3_19]
@[simp] theorem lower_1_22 (x : BitVec 1) (y : BitVec 22) {s n : Nat} (h : s + n ≤ 22) :
    BitVec.extractLsb' (n := 23) s n (x ++ y) = y.extractLsb' s n := lower x y h
@[simp] theorem upper_1_22 (x : BitVec 1) (y : BitVec 22) {s n : Nat} (h : 22 ≤ s) :
    BitVec.extractLsb' (n := 23) s n (x ++ y) = x.extractLsb' (s - 22) n := upper x y h
@[simp] theorem bit_1_22 (x : BitVec 1) (y : BitVec 22) (i : Nat) :
    BitVec.getLsbD (w := 23) (x ++ y) i = if i < 22 then y.getLsbD i else x.getLsbD (i - 22) :=
  BitVec.getLsbD_append
@[simp] theorem elem_1_22 (x : BitVec 1) (y : BitVec 22) (i : Nat) (hi : i < 23) :
    (GetElem.getElem (coll := BitVec 23) (x ++ y) i hi) = if i < 22 then y.getLsbD i else x.getLsbD (i - 22) := by
  rw [← BitVec.getLsbD_eq_getElem hi, bit_1_22]
@[simp] theorem lower_1_23 (x : BitVec 1) (y : BitVec 23) {s n : Nat} (h : s + n ≤ 23) :
    BitVec.extractLsb' (n := 24) s n (x ++ y) = y.extractLsb' s n := lower x y h
@[simp] theorem upper_1_23 (x : BitVec 1) (y : BitVec 23) {s n : Nat} (h : 23 ≤ s) :
    BitVec.extractLsb' (n := 24) s n (x ++ y) = x.extractLsb' (s - 23) n := upper x y h
@[simp] theorem bit_1_23 (x : BitVec 1) (y : BitVec 23) (i : Nat) :
    BitVec.getLsbD (w := 24) (x ++ y) i = if i < 23 then y.getLsbD i else x.getLsbD (i - 23) :=
  BitVec.getLsbD_append
@[simp] theorem elem_1_23 (x : BitVec 1) (y : BitVec 23) (i : Nat) (hi : i < 24) :
    (GetElem.getElem (coll := BitVec 24) (x ++ y) i hi) = if i < 23 then y.getLsbD i else x.getLsbD (i - 23) := by
  rw [← BitVec.getLsbD_eq_getElem hi, bit_1_23]
@[simp] theorem lower_1_24 (x : BitVec 1) (y : BitVec 24) {s n : Nat} (h : s + n ≤ 24) :
    BitVec.extractLsb' (n := 25) s n (x ++ y) = y.extractLsb' s n := lower x y h
@[simp] theorem upper_1_24 (x : BitVec 1) (y : BitVec 24) {s n : Nat} (h : 24 ≤ s) :
    BitVec.extractLsb' (n := 25) s n (x ++ y) = x.extractLsb' (s - 24) n := upper x y h
@[simp] theorem bit_1_24 (x : BitVec 1) (y : BitVec 24) (i : Nat) :
    BitVec.getLsbD (w := 25) (x ++ y) i = if i < 24 then y.getLsbD i else x.getLsbD (i - 24) :=
  BitVec.getLsbD_append
@[simp] theorem elem_1_24 (x : BitVec 1) (y : BitVec 24) (i : Nat) (hi : i < 25) :
    (GetElem.getElem (coll := BitVec 25) (x ++ y) i hi) = if i < 24 then y.getLsbD i else x.getLsbD (i - 24) := by
  rw [← BitVec.getLsbD_eq_getElem hi, bit_1_24]
@[simp] theorem lower_1_25 (x : BitVec 1) (y : BitVec 25) {s n : Nat} (h : s + n ≤ 25) :
    BitVec.extractLsb' (n := 26) s n (x ++ y) = y.extractLsb' s n := lower x y h
@[simp] theorem upper_1_25 (x : BitVec 1) (y : BitVec 25) {s n : Nat} (h : 25 ≤ s) :
    BitVec.extractLsb' (n := 26) s n (x ++ y) = x.extractLsb' (s - 25) n := upper x y h
@[simp] theorem bit_1_25 (x : BitVec 1) (y : BitVec 25) (i : Nat) :
    BitVec.getLsbD (w := 26) (x ++ y) i = if i < 25 then y.getLsbD i else x.getLsbD (i - 25) :=
  BitVec.getLsbD_append
@[simp] theorem elem_1_25 (x : BitVec 1) (y : BitVec 25) (i : Nat) (hi : i < 26) :
    (GetElem.getElem (coll := BitVec 26) (x ++ y) i hi) = if i < 25 then y.getLsbD i else x.getLsbD (i - 25) := by
  rw [← BitVec.getLsbD_eq_getElem hi, bit_1_25]
@[simp] theorem lower_6_26 (x : BitVec 6) (y : BitVec 26) {s n : Nat} (h : s + n ≤ 26) :
    BitVec.extractLsb' (n := 32) s n (x ++ y) = y.extractLsb' s n := lower x y h
@[simp] theorem upper_6_26 (x : BitVec 6) (y : BitVec 26) {s n : Nat} (h : 26 ≤ s) :
    BitVec.extractLsb' (n := 32) s n (x ++ y) = x.extractLsb' (s - 26) n := upper x y h
@[simp] theorem bit_6_26 (x : BitVec 6) (y : BitVec 26) (i : Nat) :
    BitVec.getLsbD (w := 32) (x ++ y) i = if i < 26 then y.getLsbD i else x.getLsbD (i - 26) :=
  BitVec.getLsbD_append
@[simp] theorem elem_6_26 (x : BitVec 6) (y : BitVec 26) (i : Nat) (hi : i < 32) :
    (GetElem.getElem (coll := BitVec 32) (x ++ y) i hi) = if i < 26 then y.getLsbD i else x.getLsbD (i - 26) := by
  rw [← BitVec.getLsbD_eq_getElem hi, bit_6_26]
@[simp] theorem lower_16_16 (x : BitVec 16) (y : BitVec 16) {s n : Nat} (h : s + n ≤ 16) :
    BitVec.extractLsb' (n := 32) s n (x ++ y) = y.extractLsb' s n := lower x y h
@[simp] theorem upper_16_16 (x : BitVec 16) (y : BitVec 16) {s n : Nat} (h : 16 ≤ s) :
    BitVec.extractLsb' (n := 32) s n (x ++ y) = x.extractLsb' (s - 16) n := upper x y h
@[simp] theorem bit_16_16 (x : BitVec 16) (y : BitVec 16) (i : Nat) :
    BitVec.getLsbD (w := 32) (x ++ y) i = if i < 16 then y.getLsbD i else x.getLsbD (i - 16) :=
  BitVec.getLsbD_append
@[simp] theorem elem_16_16 (x : BitVec 16) (y : BitVec 16) (i : Nat) (hi : i < 32) :
    (GetElem.getElem (coll := BitVec 32) (x ++ y) i hi) = if i < 16 then y.getLsbD i else x.getLsbD (i - 16) := by
  rw [← BitVec.getLsbD_eq_getElem hi, bit_16_16]
@[simp] theorem lower_1_32 (x : BitVec 1) (y : BitVec 32) {s n : Nat} (h : s + n ≤ 32) :
    BitVec.extractLsb' (n := 33) s n (x ++ y) = y.extractLsb' s n := lower x y h
@[simp] theorem upper_1_32 (x : BitVec 1) (y : BitVec 32) {s n : Nat} (h : 32 ≤ s) :
    BitVec.extractLsb' (n := 33) s n (x ++ y) = x.extractLsb' (s - 32) n := upper x y h
@[simp] theorem bit_1_32 (x : BitVec 1) (y : BitVec 32) (i : Nat) :
    BitVec.getLsbD (w := 33) (x ++ y) i = if i < 32 then y.getLsbD i else x.getLsbD (i - 32) :=
  BitVec.getLsbD_append
@[simp] theorem elem_1_32 (x : BitVec 1) (y : BitVec 32) (i : Nat) (hi : i < 33) :
    (GetElem.getElem (coll := BitVec 33) (x ++ y) i hi) = if i < 32 then y.getLsbD i else x.getLsbD (i - 32) := by
  rw [← BitVec.getLsbD_eq_getElem hi, bit_1_32]
@[simp] theorem lower_3_33 (x : BitVec 3) (y : BitVec 33) {s n : Nat} (h : s + n ≤ 33) :
    BitVec.extractLsb' (n := 36) s n (x ++ y) = y.extractLsb' s n := lower x y h
@[simp] theorem upper_3_33 (x : BitVec 3) (y : BitVec 33) {s n : Nat} (h : 33 ≤ s) :
    BitVec.extractLsb' (n := 36) s n (x ++ y) = x.extractLsb' (s - 33) n := upper x y h
@[simp] theorem bit_3_33 (x : BitVec 3) (y : BitVec 33) (i : Nat) :
    BitVec.getLsbD (w := 36) (x ++ y) i = if i < 33 then y.getLsbD i else x.getLsbD (i - 33) :=
  BitVec.getLsbD_append
@[simp] theorem elem_3_33 (x : BitVec 3) (y : BitVec 33) (i : Nat) (hi : i < 36) :
    (GetElem.getElem (coll := BitVec 36) (x ++ y) i hi) = if i < 33 then y.getLsbD i else x.getLsbD (i - 33) := by
  rw [← BitVec.getLsbD_eq_getElem hi, bit_3_33]
@[simp] theorem lower_1_36 (x : BitVec 1) (y : BitVec 36) {s n : Nat} (h : s + n ≤ 36) :
    BitVec.extractLsb' (n := 37) s n (x ++ y) = y.extractLsb' s n := lower x y h
@[simp] theorem upper_1_36 (x : BitVec 1) (y : BitVec 36) {s n : Nat} (h : 36 ≤ s) :
    BitVec.extractLsb' (n := 37) s n (x ++ y) = x.extractLsb' (s - 36) n := upper x y h
@[simp] theorem bit_1_36 (x : BitVec 1) (y : BitVec 36) (i : Nat) :
    BitVec.getLsbD (w := 37) (x ++ y) i = if i < 36 then y.getLsbD i else x.getLsbD (i - 36) :=
  BitVec.getLsbD_append
@[simp] theorem elem_1_36 (x : BitVec 1) (y : BitVec 36) (i : Nat) (hi : i < 37) :
    (GetElem.getElem (coll := BitVec 37) (x ++ y) i hi) = if i < 36 then y.getLsbD i else x.getLsbD (i - 36) := by
  rw [← BitVec.getLsbD_eq_getElem hi, bit_1_36]
@[simp] theorem lower_3_37 (x : BitVec 3) (y : BitVec 37) {s n : Nat} (h : s + n ≤ 37) :
    BitVec.extractLsb' (n := 40) s n (x ++ y) = y.extractLsb' s n := lower x y h
@[simp] theorem upper_3_37 (x : BitVec 3) (y : BitVec 37) {s n : Nat} (h : 37 ≤ s) :
    BitVec.extractLsb' (n := 40) s n (x ++ y) = x.extractLsb' (s - 37) n := upper x y h
@[simp] theorem bit_3_37 (x : BitVec 3) (y : BitVec 37) (i : Nat) :
    BitVec.getLsbD (w := 40) (x ++ y) i = if i < 37 then y.getLsbD i else x.getLsbD (i - 37) :=
  BitVec.getLsbD_append
@[simp] theorem elem_3_37 (x : BitVec 3) (y : BitVec 37) (i : Nat) (hi : i < 40) :
    (GetElem.getElem (coll := BitVec 40) (x ++ y) i hi) = if i < 37 then y.getLsbD i else x.getLsbD (i - 37) := by
  rw [← BitVec.getLsbD_eq_getElem hi, bit_3_37]
@[simp] theorem lower_2_40 (x : BitVec 2) (y : BitVec 40) {s n : Nat} (h : s + n ≤ 40) :
    BitVec.extractLsb' (n := 42) s n (x ++ y) = y.extractLsb' s n := lower x y h
@[simp] theorem upper_2_40 (x : BitVec 2) (y : BitVec 40) {s n : Nat} (h : 40 ≤ s) :
    BitVec.extractLsb' (n := 42) s n (x ++ y) = x.extractLsb' (s - 40) n := upper x y h
@[simp] theorem bit_2_40 (x : BitVec 2) (y : BitVec 40) (i : Nat) :
    BitVec.getLsbD (w := 42) (x ++ y) i = if i < 40 then y.getLsbD i else x.getLsbD (i - 40) :=
  BitVec.getLsbD_append
@[simp] theorem elem_2_40 (x : BitVec 2) (y : BitVec 40) (i : Nat) (hi : i < 42) :
    (GetElem.getElem (coll := BitVec 42) (x ++ y) i hi) = if i < 40 then y.getLsbD i else x.getLsbD (i - 40) := by
  rw [← BitVec.getLsbD_eq_getElem hi, bit_2_40]
@[simp] theorem lower_2_42 (x : BitVec 2) (y : BitVec 42) {s n : Nat} (h : s + n ≤ 42) :
    BitVec.extractLsb' (n := 44) s n (x ++ y) = y.extractLsb' s n := lower x y h
@[simp] theorem upper_2_42 (x : BitVec 2) (y : BitVec 42) {s n : Nat} (h : 42 ≤ s) :
    BitVec.extractLsb' (n := 44) s n (x ++ y) = x.extractLsb' (s - 42) n := upper x y h
@[simp] theorem bit_2_42 (x : BitVec 2) (y : BitVec 42) (i : Nat) :
    BitVec.getLsbD (w := 44) (x ++ y) i = if i < 42 then y.getLsbD i else x.getLsbD (i - 42) :=
  BitVec.getLsbD_append
@[simp] theorem elem_2_42 (x : BitVec 2) (y : BitVec 42) (i : Nat) (hi : i < 44) :
    (GetElem.getElem (coll := BitVec 44) (x ++ y) i hi) = if i < 42 then y.getLsbD i else x.getLsbD (i - 42) := by
  rw [← BitVec.getLsbD_eq_getElem hi, bit_2_42]
@[simp] theorem lower_8_36 (x : BitVec 8) (y : BitVec 36) {s n : Nat} (h : s + n ≤ 36) :
    BitVec.extractLsb' (n := 44) s n (x ++ y) = y.extractLsb' s n := lower x y h
@[simp] theorem upper_8_36 (x : BitVec 8) (y : BitVec 36) {s n : Nat} (h : 36 ≤ s) :
    BitVec.extractLsb' (n := 44) s n (x ++ y) = x.extractLsb' (s - 36) n := upper x y h
@[simp] theorem bit_8_36 (x : BitVec 8) (y : BitVec 36) (i : Nat) :
    BitVec.getLsbD (w := 44) (x ++ y) i = if i < 36 then y.getLsbD i else x.getLsbD (i - 36) :=
  BitVec.getLsbD_append
@[simp] theorem elem_8_36 (x : BitVec 8) (y : BitVec 36) (i : Nat) (hi : i < 44) :
    (GetElem.getElem (coll := BitVec 44) (x ++ y) i hi) = if i < 36 then y.getLsbD i else x.getLsbD (i - 36) := by
  rw [← BitVec.getLsbD_eq_getElem hi, bit_8_36]
@[simp] theorem lower_4_44 (x : BitVec 4) (y : BitVec 44) {s n : Nat} (h : s + n ≤ 44) :
    BitVec.extractLsb' (n := 48) s n (x ++ y) = y.extractLsb' s n := lower x y h
@[simp] theorem upper_4_44 (x : BitVec 4) (y : BitVec 44) {s n : Nat} (h : 44 ≤ s) :
    BitVec.extractLsb' (n := 48) s n (x ++ y) = x.extractLsb' (s - 44) n := upper x y h
@[simp] theorem bit_4_44 (x : BitVec 4) (y : BitVec 44) (i : Nat) :
    BitVec.getLsbD (w := 48) (x ++ y) i = if i < 44 then y.getLsbD i else x.getLsbD (i - 44) :=
  BitVec.getLsbD_append
@[simp] theorem elem_4_44 (x : BitVec 4) (y : BitVec 44) (i : Nat) (hi : i < 48) :
    (GetElem.getElem (coll := BitVec 48) (x ++ y) i hi) = if i < 44 then y.getLsbD i else x.getLsbD (i - 44) := by
  rw [← BitVec.getLsbD_eq_getElem hi, bit_4_44]
@[simp] theorem lower_16_32 (x : BitVec 16) (y : BitVec 32) {s n : Nat} (h : s + n ≤ 32) :
    BitVec.extractLsb' (n := 48) s n (x ++ y) = y.extractLsb' s n := lower x y h
@[simp] theorem upper_16_32 (x : BitVec 16) (y : BitVec 32) {s n : Nat} (h : 32 ≤ s) :
    BitVec.extractLsb' (n := 48) s n (x ++ y) = x.extractLsb' (s - 32) n := upper x y h
@[simp] theorem bit_16_32 (x : BitVec 16) (y : BitVec 32) (i : Nat) :
    BitVec.getLsbD (w := 48) (x ++ y) i = if i < 32 then y.getLsbD i else x.getLsbD (i - 32) :=
  BitVec.getLsbD_append
@[simp] theorem elem_16_32 (x : BitVec 16) (y : BitVec 32) (i : Nat) (hi : i < 48) :
    (GetElem.getElem (coll := BitVec 48) (x ++ y) i hi) = if i < 32 then y.getLsbD i else x.getLsbD (i - 32) := by
  rw [← BitVec.getLsbD_eq_getElem hi, bit_16_32]
@[simp] theorem lower_1_48 (x : BitVec 1) (y : BitVec 48) {s n : Nat} (h : s + n ≤ 48) :
    BitVec.extractLsb' (n := 49) s n (x ++ y) = y.extractLsb' s n := lower x y h
@[simp] theorem upper_1_48 (x : BitVec 1) (y : BitVec 48) {s n : Nat} (h : 48 ≤ s) :
    BitVec.extractLsb' (n := 49) s n (x ++ y) = x.extractLsb' (s - 48) n := upper x y h
@[simp] theorem bit_1_48 (x : BitVec 1) (y : BitVec 48) (i : Nat) :
    BitVec.getLsbD (w := 49) (x ++ y) i = if i < 48 then y.getLsbD i else x.getLsbD (i - 48) :=
  BitVec.getLsbD_append
@[simp] theorem elem_1_48 (x : BitVec 1) (y : BitVec 48) (i : Nat) (hi : i < 49) :
    (GetElem.getElem (coll := BitVec 49) (x ++ y) i hi) = if i < 48 then y.getLsbD i else x.getLsbD (i - 48) := by
  rw [← BitVec.getLsbD_eq_getElem hi, bit_1_48]
@[simp] theorem lower_3_49 (x : BitVec 3) (y : BitVec 49) {s n : Nat} (h : s + n ≤ 49) :
    BitVec.extractLsb' (n := 52) s n (x ++ y) = y.extractLsb' s n := lower x y h
@[simp] theorem upper_3_49 (x : BitVec 3) (y : BitVec 49) {s n : Nat} (h : 49 ≤ s) :
    BitVec.extractLsb' (n := 52) s n (x ++ y) = x.extractLsb' (s - 49) n := upper x y h
@[simp] theorem bit_3_49 (x : BitVec 3) (y : BitVec 49) (i : Nat) :
    BitVec.getLsbD (w := 52) (x ++ y) i = if i < 49 then y.getLsbD i else x.getLsbD (i - 49) :=
  BitVec.getLsbD_append
@[simp] theorem elem_3_49 (x : BitVec 3) (y : BitVec 49) (i : Nat) (hi : i < 52) :
    (GetElem.getElem (coll := BitVec 52) (x ++ y) i hi) = if i < 49 then y.getLsbD i else x.getLsbD (i - 49) := by
  rw [← BitVec.getLsbD_eq_getElem hi, bit_3_49]
@[simp] theorem lower_8_44 (x : BitVec 8) (y : BitVec 44) {s n : Nat} (h : s + n ≤ 44) :
    BitVec.extractLsb' (n := 52) s n (x ++ y) = y.extractLsb' s n := lower x y h
@[simp] theorem upper_8_44 (x : BitVec 8) (y : BitVec 44) {s n : Nat} (h : 44 ≤ s) :
    BitVec.extractLsb' (n := 52) s n (x ++ y) = x.extractLsb' (s - 44) n := upper x y h
@[simp] theorem bit_8_44 (x : BitVec 8) (y : BitVec 44) (i : Nat) :
    BitVec.getLsbD (w := 52) (x ++ y) i = if i < 44 then y.getLsbD i else x.getLsbD (i - 44) :=
  BitVec.getLsbD_append
@[simp] theorem elem_8_44 (x : BitVec 8) (y : BitVec 44) (i : Nat) (hi : i < 52) :
    (GetElem.getElem (coll := BitVec 52) (x ++ y) i hi) = if i < 44 then y.getLsbD i else x.getLsbD (i - 44) := by
  rw [← BitVec.getLsbD_eq_getElem hi, bit_8_44]
@[simp] theorem lower_20_32 (x : BitVec 20) (y : BitVec 32) {s n : Nat} (h : s + n ≤ 32) :
    BitVec.extractLsb' (n := 52) s n (x ++ y) = y.extractLsb' s n := lower x y h
@[simp] theorem upper_20_32 (x : BitVec 20) (y : BitVec 32) {s n : Nat} (h : 32 ≤ s) :
    BitVec.extractLsb' (n := 52) s n (x ++ y) = x.extractLsb' (s - 32) n := upper x y h
@[simp] theorem bit_20_32 (x : BitVec 20) (y : BitVec 32) (i : Nat) :
    BitVec.getLsbD (w := 52) (x ++ y) i = if i < 32 then y.getLsbD i else x.getLsbD (i - 32) :=
  BitVec.getLsbD_append
@[simp] theorem elem_20_32 (x : BitVec 20) (y : BitVec 32) (i : Nat) (hi : i < 52) :
    (GetElem.getElem (coll := BitVec 52) (x ++ y) i hi) = if i < 32 then y.getLsbD i else x.getLsbD (i - 32) := by
  rw [← BitVec.getLsbD_eq_getElem hi, bit_20_32]
@[simp] theorem lower_7_52 (x : BitVec 7) (y : BitVec 52) {s n : Nat} (h : s + n ≤ 52) :
    BitVec.extractLsb' (n := 59) s n (x ++ y) = y.extractLsb' s n := lower x y h
@[simp] theorem upper_7_52 (x : BitVec 7) (y : BitVec 52) {s n : Nat} (h : 52 ≤ s) :
    BitVec.extractLsb' (n := 59) s n (x ++ y) = x.extractLsb' (s - 52) n := upper x y h
@[simp] theorem bit_7_52 (x : BitVec 7) (y : BitVec 52) (i : Nat) :
    BitVec.getLsbD (w := 59) (x ++ y) i = if i < 52 then y.getLsbD i else x.getLsbD (i - 52) :=
  BitVec.getLsbD_append
@[simp] theorem elem_7_52 (x : BitVec 7) (y : BitVec 52) (i : Nat) (hi : i < 59) :
    (GetElem.getElem (coll := BitVec 59) (x ++ y) i hi) = if i < 52 then y.getLsbD i else x.getLsbD (i - 52) := by
  rw [← BitVec.getLsbD_eq_getElem hi, bit_7_52]
@[simp] theorem lower_1_59 (x : BitVec 1) (y : BitVec 59) {s n : Nat} (h : s + n ≤ 59) :
    BitVec.extractLsb' (n := 60) s n (x ++ y) = y.extractLsb' s n := lower x y h
@[simp] theorem upper_1_59 (x : BitVec 1) (y : BitVec 59) {s n : Nat} (h : 59 ≤ s) :
    BitVec.extractLsb' (n := 60) s n (x ++ y) = x.extractLsb' (s - 59) n := upper x y h
@[simp] theorem bit_1_59 (x : BitVec 1) (y : BitVec 59) (i : Nat) :
    BitVec.getLsbD (w := 60) (x ++ y) i = if i < 59 then y.getLsbD i else x.getLsbD (i - 59) :=
  BitVec.getLsbD_append
@[simp] theorem elem_1_59 (x : BitVec 1) (y : BitVec 59) (i : Nat) (hi : i < 60) :
    (GetElem.getElem (coll := BitVec 60) (x ++ y) i hi) = if i < 59 then y.getLsbD i else x.getLsbD (i - 59) := by
  rw [← BitVec.getLsbD_eq_getElem hi, bit_1_59]
@[simp] theorem lower_8_52 (x : BitVec 8) (y : BitVec 52) {s n : Nat} (h : s + n ≤ 52) :
    BitVec.extractLsb' (n := 60) s n (x ++ y) = y.extractLsb' s n := lower x y h
@[simp] theorem upper_8_52 (x : BitVec 8) (y : BitVec 52) {s n : Nat} (h : 52 ≤ s) :
    BitVec.extractLsb' (n := 60) s n (x ++ y) = x.extractLsb' (s - 52) n := upper x y h
@[simp] theorem bit_8_52 (x : BitVec 8) (y : BitVec 52) (i : Nat) :
    BitVec.getLsbD (w := 60) (x ++ y) i = if i < 52 then y.getLsbD i else x.getLsbD (i - 52) :=
  BitVec.getLsbD_append
@[simp] theorem elem_8_52 (x : BitVec 8) (y : BitVec 52) (i : Nat) (hi : i < 60) :
    (GetElem.getElem (coll := BitVec 60) (x ++ y) i hi) = if i < 52 then y.getLsbD i else x.getLsbD (i - 52) := by
  rw [← BitVec.getLsbD_eq_getElem hi, bit_8_52]
@[simp] theorem lower_12_48 (x : BitVec 12) (y : BitVec 48) {s n : Nat} (h : s + n ≤ 48) :
    BitVec.extractLsb' (n := 60) s n (x ++ y) = y.extractLsb' s n := lower x y h
@[simp] theorem upper_12_48 (x : BitVec 12) (y : BitVec 48) {s n : Nat} (h : 48 ≤ s) :
    BitVec.extractLsb' (n := 60) s n (x ++ y) = x.extractLsb' (s - 48) n := upper x y h
@[simp] theorem bit_12_48 (x : BitVec 12) (y : BitVec 48) (i : Nat) :
    BitVec.getLsbD (w := 60) (x ++ y) i = if i < 48 then y.getLsbD i else x.getLsbD (i - 48) :=
  BitVec.getLsbD_append
@[simp] theorem elem_12_48 (x : BitVec 12) (y : BitVec 48) (i : Nat) (hi : i < 60) :
    (GetElem.getElem (coll := BitVec 60) (x ++ y) i hi) = if i < 48 then y.getLsbD i else x.getLsbD (i - 48) := by
  rw [← BitVec.getLsbD_eq_getElem hi, bit_12_48]
@[simp] theorem lower_44_16 (x : BitVec 44) (y : BitVec 16) {s n : Nat} (h : s + n ≤ 16) :
    BitVec.extractLsb' (n := 60) s n (x ++ y) = y.extractLsb' s n := lower x y h
@[simp] theorem upper_44_16 (x : BitVec 44) (y : BitVec 16) {s n : Nat} (h : 16 ≤ s) :
    BitVec.extractLsb' (n := 60) s n (x ++ y) = x.extractLsb' (s - 16) n := upper x y h
@[simp] theorem bit_44_16 (x : BitVec 44) (y : BitVec 16) (i : Nat) :
    BitVec.getLsbD (w := 60) (x ++ y) i = if i < 16 then y.getLsbD i else x.getLsbD (i - 16) :=
  BitVec.getLsbD_append
@[simp] theorem elem_44_16 (x : BitVec 44) (y : BitVec 16) (i : Nat) (hi : i < 60) :
    (GetElem.getElem (coll := BitVec 60) (x ++ y) i hi) = if i < 16 then y.getLsbD i else x.getLsbD (i - 16) := by
  rw [← BitVec.getLsbD_eq_getElem hi, bit_44_16]
@[simp] theorem lower_4_60 (x : BitVec 4) (y : BitVec 60) {s n : Nat} (h : s + n ≤ 60) :
    BitVec.extractLsb' (n := 64) s n (x ++ y) = y.extractLsb' s n := lower x y h
@[simp] theorem upper_4_60 (x : BitVec 4) (y : BitVec 60) {s n : Nat} (h : 60 ≤ s) :
    BitVec.extractLsb' (n := 64) s n (x ++ y) = x.extractLsb' (s - 60) n := upper x y h
@[simp] theorem bit_4_60 (x : BitVec 4) (y : BitVec 60) (i : Nat) :
    BitVec.getLsbD (w := 64) (x ++ y) i = if i < 60 then y.getLsbD i else x.getLsbD (i - 60) :=
  BitVec.getLsbD_append
@[simp] theorem elem_4_60 (x : BitVec 4) (y : BitVec 60) (i : Nat) (hi : i < 64) :
    (GetElem.getElem (coll := BitVec 64) (x ++ y) i hi) = if i < 60 then y.getLsbD i else x.getLsbD (i - 60) := by
  rw [← BitVec.getLsbD_eq_getElem hi, bit_4_60]
@[simp] theorem lower_16_48 (x : BitVec 16) (y : BitVec 48) {s n : Nat} (h : s + n ≤ 48) :
    BitVec.extractLsb' (n := 64) s n (x ++ y) = y.extractLsb' s n := lower x y h
@[simp] theorem upper_16_48 (x : BitVec 16) (y : BitVec 48) {s n : Nat} (h : 48 ≤ s) :
    BitVec.extractLsb' (n := 64) s n (x ++ y) = x.extractLsb' (s - 48) n := upper x y h
@[simp] theorem bit_16_48 (x : BitVec 16) (y : BitVec 48) (i : Nat) :
    BitVec.getLsbD (w := 64) (x ++ y) i = if i < 48 then y.getLsbD i else x.getLsbD (i - 48) :=
  BitVec.getLsbD_append
@[simp] theorem elem_16_48 (x : BitVec 16) (y : BitVec 48) (i : Nat) (hi : i < 64) :
    (GetElem.getElem (coll := BitVec 64) (x ++ y) i hi) = if i < 48 then y.getLsbD i else x.getLsbD (i - 48) := by
  rw [← BitVec.getLsbD_eq_getElem hi, bit_16_48]

end Sys2Proof.Bits
end

