-- ==== Sys2Proof/Laws/Memory.lean ====
section
/-! SUPPORT. The laws of the buffer memory: read after write, and the canonical form. -/

namespace Sys2Proof.Machine

/-- A byte below every listed address is unlisted. -/
theorem Memory.readByte_below {m : Memory} {lo a : Nat} (h : Memory.wfFrom lo m = true) (ha : a < lo) :
    Memory.readByte m a = Memory.unlisted := by
  induction m generalizing lo with
  | nil => rfl
  | cons c m ih =>
    obtain ⟨k, v⟩ := c
    simp only [Memory.wfFrom, Bool.and_eq_true, decide_eq_true_eq] at h
    have hne : k ≠ a := by omega
    simp [Memory.readByte, hne, ih h.2 (by omega)]

/-- Reading the byte just written (R63, R64). -/
theorem Memory.readByte_writeByte_same {m : Memory} {lo : Nat} (h : Memory.wfFrom lo m = true) (a : Nat) (v : Byte) :
    Memory.readByte (Memory.writeByte m a v) a = v := by
  induction m generalizing lo with
  | nil => by_cases hv : v = Memory.unlisted <;> simp [Memory.writeByte, Memory.readByte, hv]
  | cons c m ih =>
    obtain ⟨k, x⟩ := c
    simp only [Memory.wfFrom, Bool.and_eq_true, decide_eq_true_eq] at h
    by_cases hlt : a < k
    · have hne : k ≠ a := by omega
      by_cases hv : v = Memory.unlisted
      · simp [Memory.writeByte, Memory.readByte, hlt, hv, hne, Memory.readByte_below h.2 (by omega : a < k + 1)]
      · simp [Memory.writeByte, Memory.readByte, hlt, hv]
    · by_cases heq : a = k
      · subst heq
        by_cases hv : v = Memory.unlisted
        · simp [Memory.writeByte, hv, Memory.readByte_below h.2 (by omega : a < a + 1)]
        · simp [Memory.writeByte, Memory.readByte, hv]
      · have hne : k ≠ a := by omega
        simp [Memory.writeByte, Memory.readByte, hlt, heq, hne, ih h.2]

/-- A write changes no other byte (R64). -/
theorem Memory.readByte_writeByte_other (m : Memory) {a b : Nat} (v : Byte) (hab : b ≠ a) :
    Memory.readByte (Memory.writeByte m a v) b = Memory.readByte m b := by
  induction m with
  | nil => by_cases hv : v = Memory.unlisted <;> simp [Memory.writeByte, Memory.readByte, hv, Ne.symm hab]
  | cons c m ih =>
    obtain ⟨k, x⟩ := c
    by_cases hlt : a < k
    · by_cases hv : v = Memory.unlisted <;> simp [Memory.writeByte, Memory.readByte, hlt, hv, Ne.symm hab]
    · by_cases heq : a = k
      · subst heq
        by_cases hv : v = Memory.unlisted <;> simp [Memory.writeByte, Memory.readByte, hv, Ne.symm hab]
      · simp [Memory.writeByte, Memory.readByte, hlt, heq, ih]

/-- The canonical form above a bound holds above any lower one. -/
theorem Memory.wfFrom_mono {m : Memory} {lo lo' : Nat} (h : Memory.wfFrom lo m = true) (hl : lo' ≤ lo) :
    Memory.wfFrom lo' m = true := by
  cases m with
  | nil => rfl
  | cons c m =>
    obtain ⟨k, x⟩ := c
    simp only [Memory.wfFrom, Bool.and_eq_true, decide_eq_true_eq] at h ⊢
    exact ⟨⟨⟨by omega, h.1.1.2⟩, h.1.2⟩, h.2⟩

/-- A write keeps the canonical form above `lo`. -/
theorem Memory.wfFrom_writeByte {m : Memory} {lo a : Nat} (v : Byte) (h : Memory.wfFrom lo m = true) (hlo : lo ≤ a)
    (ha : a < 2 ^ 16) : Memory.wfFrom lo (Memory.writeByte m a v) = true := by
  induction m generalizing lo with
  | nil => by_cases hv : v = Memory.unlisted <;> simp_all [Memory.writeByte, Memory.wfFrom]
  | cons c m ih =>
    obtain ⟨k, x⟩ := c
    have h' := h
    simp only [Memory.wfFrom, Bool.and_eq_true, decide_eq_true_eq] at h'
    obtain ⟨⟨⟨h1, h2⟩, h3⟩, h4⟩ := h'
    norm_num at ha h2
    by_cases hlt : a < k
    · have hk : a + 1 ≤ k := hlt
      by_cases hv : v = Memory.unlisted
      · simpa [Memory.writeByte, hlt, hv] using h
      · simp [Memory.writeByte, Memory.wfFrom, hlt, hv, hlo, ha, h2, h3, h4, hk]
    · by_cases heq : a = k
      · subst heq
        by_cases hv : v = Memory.unlisted
        · simp only [Memory.writeByte, hlt, if_false, if_true, hv]
          exact Memory.wfFrom_mono h4 (by omega)
        · simp [Memory.writeByte, Memory.wfFrom, hv, h1, h2, h4]
      · have hk : k + 1 ≤ a := by omega
        simp [Memory.writeByte, Memory.wfFrom, hlt, heq, h1, h2, h3, ih h4 hk]

/-- Every memory operation keeps the canonical form. -/
theorem Memory.wf_writeByte {m : Memory} (a : Half) (v : Byte) (h : m.wf = true) :
    (Memory.writeByte m a.toNat v).wf = true :=
  Memory.wfFrom_writeByte v h (Nat.zero_le _) a.isLt

/-- The byte the machine reads after its own store (R63, R64). -/
theorem State.readByte_memWrite (s : State) (a b : Half) (v : Byte) (h : s.mem.wf = true) :
    (s.memWrite a v).readByte b = if b = a then v else s.readByte b := by
  simp only [State.readByte, State.memWrite]
  split
  · subst_vars; exact Memory.readByte_writeByte_same h _ v
  · exact Memory.readByte_writeByte_other _ v (fun e => ‹¬b = a› (BitVec.eq_of_toNat_eq e))

end Sys2Proof.Machine
end

