-- ==== Sys2Proof/Laws/PerInstr.lean ====
section
/-! SUPPORT. Statements made for every command, one lemma per constructor. -/

/-- The first four bits of a command's word are its opcode (R81, R84), and a well-formed reserved command's are 0xC to 0xF
(R98). -/
def Sys2Proof.Laws.EncodeCarriesOpcode.Statement (i : Sys2Proof.Instr) : Prop :=
  i.wf = true → (Sys2Proof.encode i).extractLsb' 60 4 = i.op

namespace Sys2Proof.Laws.EncodeCarriesOpcode

theorem nop : Statement .nop := by intro _; decide
theorem register (a : BitVec 7) (w r : Half) : Statement (.register a w r) := by
  intro _; simp [encode, formatR, Instr.op]
theorem beginTransfer (dev : Handle) (rs : Bool) (ns nr : Half) : Statement (.beginTransfer dev rs ns nr) := by
  intro _; simp [encode, formatT, Instr.op]
theorem queue (dev : Handle) (rs : Bool) (ns nr : Half) : Statement (.queue dev rs ns nr) := by
  intro _; simp [encode, formatT, Instr.op]
theorem poll : Statement .poll := by intro _; decide
theorem isFinished (dev : Handle) : Statement (.isFinished dev) := by intro _; simp [encode, formatD, Instr.op]
theorem getCounts (dev : Handle) : Statement (.getCounts dev) := by intro _; simp [encode, formatD, Instr.op]
theorem isBusIdle : Statement .isBusIdle := by intro _; decide
theorem ackResult (dev : Handle) : Statement (.ackResult dev) := by intro _; simp [encode, formatD, Instr.op]
theorem writePeriod (p : Half) : Statement (.writePeriod p) := by intro _; simp [encode, formatP, Instr.op]
theorem readStatus : Statement .readStatus := by intro _; decide
theorem readTimer : Statement .readTimer := by intro _; decide
theorem reserved (op : BitVec 4) : Statement (.reserved op) := by intro _; simp [encode, formatN, Instr.op]

end Sys2Proof.Laws.EncodeCarriesOpcode
end

