-- ==== Sys2Proof/Laws/State.lean ====
section
/-! SUPPORT. One lemma per field per update of the state, so that no later proof unfolds a record update. -/

namespace Sys2Proof.Machine

/-! ## State.setDev -/

@[simp] theorem State.setDev_params (s : State) (h : Handle) (d : Device) : (s.setDev h d).params = s.params := rfl
@[simp] theorem State.setDev_fsm (s : State) (h : Handle) (d : Device) : (s.setDev h d).fsm = s.fsm := rfl
@[simp] theorem State.setDev_shadow (s : State) (h : Handle) (d : Device) : (s.setDev h d).shadow = s.shadow := rfl
@[simp] theorem State.setDev_active (s : State) (h : Handle) (d : Device) : (s.setDev h d).active = s.active := rfl
@[simp] theorem State.setDev_busy (s : State) (h : Handle) (d : Device) : (s.setDev h d).busy = s.busy := rfl
@[simp] theorem State.setDev_cursor (s : State) (h : Handle) (d : Device) : (s.setDev h d).cursor = s.cursor := rfl
@[simp] theorem State.setDev_regCount (s : State) (h : Handle) (d : Device) :
    (s.setDev h d).regCount = s.regCount := rfl
@[simp] theorem State.setDev_devs (s : State) (h : Handle) (d : Device) :
    (s.setDev h d).devs = s.devs.set h.toNat d := rfl
@[simp] theorem State.setDev_timer (s : State) (h : Handle) (d : Device) : (s.setDev h d).timer = s.timer := rfl
@[simp] theorem State.setDev_mem (s : State) (h : Handle) (d : Device) : (s.setDev h d).mem = s.mem := rfl
@[simp] theorem State.setDev_inputs (s : State) (h : Handle) (d : Device) : (s.setDev h d).inputs = s.inputs := rfl
@[simp] theorem State.setDev_response (s : State) (h : Handle) (d : Device) :
    (s.setDev h d).response = s.response := rfl
@[simp] theorem State.setDev_periphOut (s : State) (h : Handle) (d : Device) :
    (s.setDev h d).periphOut = s.periphOut := rfl
@[simp] theorem State.setDev_memOps (s : State) (h : Handle) (d : Device) : (s.setDev h d).memOps = s.memOps := rfl
@[simp] theorem State.setDev_events (s : State) (h : Handle) (d : Device) : (s.setDev h d).events = s.events := rfl

/-! ## State.respond -/

@[simp] theorem State.respond_params (s : State) (st : Status) (payload : BitVec 60) :
    (s.respond st payload).params = s.params := rfl
@[simp] theorem State.respond_fsm (s : State) (st : Status) (payload : BitVec 60) :
    (s.respond st payload).fsm = s.fsm := rfl
@[simp] theorem State.respond_shadow (s : State) (st : Status) (payload : BitVec 60) :
    (s.respond st payload).shadow = s.shadow := rfl
@[simp] theorem State.respond_active (s : State) (st : Status) (payload : BitVec 60) :
    (s.respond st payload).active = s.active := rfl
@[simp] theorem State.respond_busy (s : State) (st : Status) (payload : BitVec 60) :
    (s.respond st payload).busy = s.busy := rfl
@[simp] theorem State.respond_cursor (s : State) (st : Status) (payload : BitVec 60) :
    (s.respond st payload).cursor = s.cursor := rfl
@[simp] theorem State.respond_regCount (s : State) (st : Status) (payload : BitVec 60) :
    (s.respond st payload).regCount = s.regCount := rfl
@[simp] theorem State.respond_devs (s : State) (st : Status) (payload : BitVec 60) :
    (s.respond st payload).devs = s.devs := rfl
@[simp] theorem State.respond_timer (s : State) (st : Status) (payload : BitVec 60) :
    (s.respond st payload).timer = s.timer := rfl
@[simp] theorem State.respond_mem (s : State) (st : Status) (payload : BitVec 60) :
    (s.respond st payload).mem = s.mem := rfl
@[simp] theorem State.respond_inputs (s : State) (st : Status) (payload : BitVec 60) :
    (s.respond st payload).inputs = s.inputs := rfl
@[simp] theorem State.respond_response (s : State) (st : Status) (payload : BitVec 60) :
    (s.respond st payload).response = some (responseWord st payload) := rfl
@[simp] theorem State.respond_periphOut (s : State) (st : Status) (payload : BitVec 60) :
    (s.respond st payload).periphOut = s.periphOut := rfl
@[simp] theorem State.respond_memOps (s : State) (st : Status) (payload : BitVec 60) :
    (s.respond st payload).memOps = s.memOps := rfl
@[simp] theorem State.respond_events (s : State) (st : Status) (payload : BitVec 60) :
    (s.respond st payload).events = s.events := rfl

/-! ## State.disarm -/

@[simp] theorem State.disarm_params (s : State) : (s.disarm).params = s.params := rfl
@[simp] theorem State.disarm_fsm (s : State) : (s.disarm).fsm = s.fsm := rfl
@[simp] theorem State.disarm_shadow (s : State) : (s.disarm).shadow = s.shadow := rfl
@[simp] theorem State.disarm_active (s : State) : (s.disarm).active = s.active := rfl
@[simp] theorem State.disarm_busy (s : State) : (s.disarm).busy = s.busy := rfl
@[simp] theorem State.disarm_cursor (s : State) : (s.disarm).cursor = s.cursor := rfl
@[simp] theorem State.disarm_regCount (s : State) : (s.disarm).regCount = s.regCount := rfl
@[simp] theorem State.disarm_devs (s : State) : (s.disarm).devs = s.devs := rfl
@[simp] theorem State.disarm_timer (s : State) : (s.disarm).timer = s.timer.disarm := rfl
@[simp] theorem State.disarm_mem (s : State) : (s.disarm).mem = s.mem := rfl
@[simp] theorem State.disarm_inputs (s : State) : (s.disarm).inputs = s.inputs := rfl
@[simp] theorem State.disarm_response (s : State) : (s.disarm).response = s.response := rfl
@[simp] theorem State.disarm_periphOut (s : State) : (s.disarm).periphOut = s.periphOut := rfl
@[simp] theorem State.disarm_memOps (s : State) : (s.disarm).memOps = s.memOps := rfl
@[simp] theorem State.disarm_events (s : State) : (s.disarm).events = s.events := rfl

/-! ## State.noteRead -/

@[simp] theorem State.noteRead_params (s : State) (a : Half) : (s.noteRead a).params = s.params := rfl
@[simp] theorem State.noteRead_fsm (s : State) (a : Half) : (s.noteRead a).fsm = s.fsm := rfl
@[simp] theorem State.noteRead_shadow (s : State) (a : Half) : (s.noteRead a).shadow = s.shadow := rfl
@[simp] theorem State.noteRead_active (s : State) (a : Half) : (s.noteRead a).active = s.active := rfl
@[simp] theorem State.noteRead_busy (s : State) (a : Half) : (s.noteRead a).busy = s.busy := rfl
@[simp] theorem State.noteRead_cursor (s : State) (a : Half) : (s.noteRead a).cursor = s.cursor := rfl
@[simp] theorem State.noteRead_regCount (s : State) (a : Half) : (s.noteRead a).regCount = s.regCount := rfl
@[simp] theorem State.noteRead_devs (s : State) (a : Half) : (s.noteRead a).devs = s.devs := rfl
@[simp] theorem State.noteRead_timer (s : State) (a : Half) : (s.noteRead a).timer = s.timer := rfl
@[simp] theorem State.noteRead_mem (s : State) (a : Half) : (s.noteRead a).mem = s.mem := rfl
@[simp] theorem State.noteRead_inputs (s : State) (a : Half) : (s.noteRead a).inputs = s.inputs := rfl
@[simp] theorem State.noteRead_response (s : State) (a : Half) : (s.noteRead a).response = s.response := rfl
@[simp] theorem State.noteRead_periphOut (s : State) (a : Half) : (s.noteRead a).periphOut = s.periphOut := rfl
@[simp] theorem State.noteRead_memOps (s : State) (a : Half) :
    (s.noteRead a).memOps = s.memOps ++ [.read a (s.readByte a)] := rfl
@[simp] theorem State.noteRead_events (s : State) (a : Half) : (s.noteRead a).events = s.events := rfl

/-! ## State.memWrite -/

@[simp] theorem State.memWrite_params (s : State) (a : Half) (v : Byte) : (s.memWrite a v).params = s.params := rfl
@[simp] theorem State.memWrite_fsm (s : State) (a : Half) (v : Byte) : (s.memWrite a v).fsm = s.fsm := rfl
@[simp] theorem State.memWrite_shadow (s : State) (a : Half) (v : Byte) : (s.memWrite a v).shadow = s.shadow := rfl
@[simp] theorem State.memWrite_active (s : State) (a : Half) (v : Byte) : (s.memWrite a v).active = s.active := rfl
@[simp] theorem State.memWrite_busy (s : State) (a : Half) (v : Byte) : (s.memWrite a v).busy = s.busy := rfl
@[simp] theorem State.memWrite_cursor (s : State) (a : Half) (v : Byte) : (s.memWrite a v).cursor = s.cursor := rfl
@[simp] theorem State.memWrite_regCount (s : State) (a : Half) (v : Byte) :
    (s.memWrite a v).regCount = s.regCount := rfl
@[simp] theorem State.memWrite_devs (s : State) (a : Half) (v : Byte) : (s.memWrite a v).devs = s.devs := rfl
@[simp] theorem State.memWrite_timer (s : State) (a : Half) (v : Byte) : (s.memWrite a v).timer = s.timer := rfl
@[simp] theorem State.memWrite_mem (s : State) (a : Half) (v : Byte) :
    (s.memWrite a v).mem = Memory.writeByte s.mem a.toNat v := rfl
@[simp] theorem State.memWrite_inputs (s : State) (a : Half) (v : Byte) : (s.memWrite a v).inputs = s.inputs := rfl
@[simp] theorem State.memWrite_response (s : State) (a : Half) (v : Byte) :
    (s.memWrite a v).response = s.response := rfl
@[simp] theorem State.memWrite_periphOut (s : State) (a : Half) (v : Byte) :
    (s.memWrite a v).periphOut = s.periphOut := rfl
@[simp] theorem State.memWrite_memOps (s : State) (a : Half) (v : Byte) :
    (s.memWrite a v).memOps = s.memOps ++ [.write a v] := rfl
@[simp] theorem State.memWrite_events (s : State) (a : Half) (v : Byte) : (s.memWrite a v).events = s.events := rfl

/-! ## State.issue -/

@[simp] theorem State.issue_params (s : State) (code : PeriphCode) (data : Byte) :
    (s.issue code data).params = s.params := by
  cases code <;> rfl
@[simp] theorem State.issue_fsm (s : State) (code : PeriphCode) (data : Byte) :
    (s.issue code data).fsm = s.fsm := by
  cases code <;> rfl
@[simp] theorem State.issue_active (s : State) (code : PeriphCode) (data : Byte) :
    (s.issue code data).active = s.active := by
  cases code <;> rfl
@[simp] theorem State.issue_busy (s : State) (code : PeriphCode) (data : Byte) :
    (s.issue code data).busy = s.busy := by
  cases code <;> rfl
@[simp] theorem State.issue_cursor (s : State) (code : PeriphCode) (data : Byte) :
    (s.issue code data).cursor = s.cursor := by
  cases code <;> rfl
@[simp] theorem State.issue_regCount (s : State) (code : PeriphCode) (data : Byte) :
    (s.issue code data).regCount = s.regCount := by
  cases code <;> rfl
@[simp] theorem State.issue_devs (s : State) (code : PeriphCode) (data : Byte) :
    (s.issue code data).devs = s.devs := by
  cases code <;> rfl
@[simp] theorem State.issue_mem (s : State) (code : PeriphCode) (data : Byte) :
    (s.issue code data).mem = s.mem := by
  cases code <;> rfl
@[simp] theorem State.issue_inputs (s : State) (code : PeriphCode) (data : Byte) :
    (s.issue code data).inputs = s.inputs := by
  cases code <;> rfl
@[simp] theorem State.issue_response (s : State) (code : PeriphCode) (data : Byte) :
    (s.issue code data).response = s.response := by
  cases code <;> rfl
@[simp] theorem State.issue_periphOut (s : State) (code : PeriphCode) (data : Byte) :
    (s.issue code data).periphOut = s.periphOut ++ [⟨code, data⟩] := by
  cases code <;> rfl
@[simp] theorem State.issue_memOps (s : State) (code : PeriphCode) (data : Byte) :
    (s.issue code data).memOps = s.memOps := by
  cases code <;> rfl
@[simp] theorem State.issue_events (s : State) (code : PeriphCode) (data : Byte) :
    (s.issue code data).events = s.events := by
  cases code <;> rfl

/-! ## State.openStep -/

@[simp] theorem State.openStep_params (s : State) (x : PeriphInputs) (rest : List Event) :
    (s.openStep x rest).params = s.params := rfl
@[simp] theorem State.openStep_fsm (s : State) (x : PeriphInputs) (rest : List Event) :
    (s.openStep x rest).fsm = s.fsm := rfl
@[simp] theorem State.openStep_shadow (s : State) (x : PeriphInputs) (rest : List Event) :
    (s.openStep x rest).shadow = s.shadow := rfl
@[simp] theorem State.openStep_active (s : State) (x : PeriphInputs) (rest : List Event) :
    (s.openStep x rest).active = s.active := rfl
@[simp] theorem State.openStep_busy (s : State) (x : PeriphInputs) (rest : List Event) :
    (s.openStep x rest).busy = s.busy := rfl
@[simp] theorem State.openStep_cursor (s : State) (x : PeriphInputs) (rest : List Event) :
    (s.openStep x rest).cursor = s.cursor := rfl
@[simp] theorem State.openStep_regCount (s : State) (x : PeriphInputs) (rest : List Event) :
    (s.openStep x rest).regCount = s.regCount := rfl
@[simp] theorem State.openStep_devs (s : State) (x : PeriphInputs) (rest : List Event) :
    (s.openStep x rest).devs = s.devs := rfl
@[simp] theorem State.openStep_timer (s : State) (x : PeriphInputs) (rest : List Event) :
    (s.openStep x rest).timer = s.timer := rfl
@[simp] theorem State.openStep_mem (s : State) (x : PeriphInputs) (rest : List Event) :
    (s.openStep x rest).mem = s.mem := rfl
@[simp] theorem State.openStep_inputs (s : State) (x : PeriphInputs) (rest : List Event) :
    (s.openStep x rest).inputs = x := rfl
@[simp] theorem State.openStep_response (s : State) (x : PeriphInputs) (rest : List Event) :
    (s.openStep x rest).response = none := rfl
@[simp] theorem State.openStep_periphOut (s : State) (x : PeriphInputs) (rest : List Event) :
    (s.openStep x rest).periphOut = [] := rfl
@[simp] theorem State.openStep_memOps (s : State) (x : PeriphInputs) (rest : List Event) :
    (s.openStep x rest).memOps = [] := rfl
@[simp] theorem State.openStep_events (s : State) (x : PeriphInputs) (rest : List Event) :
    (s.openStep x rest).events = rest := rfl

/-! ## State.hostWrite -/

@[simp] theorem State.hostWrite_params (s : State) (a : Half) (v : Byte) (rest : List Event) :
    (s.hostWrite a v rest).params = s.params := rfl
@[simp] theorem State.hostWrite_fsm (s : State) (a : Half) (v : Byte) (rest : List Event) :
    (s.hostWrite a v rest).fsm = s.fsm := rfl
@[simp] theorem State.hostWrite_shadow (s : State) (a : Half) (v : Byte) (rest : List Event) :
    (s.hostWrite a v rest).shadow = s.shadow := rfl
@[simp] theorem State.hostWrite_active (s : State) (a : Half) (v : Byte) (rest : List Event) :
    (s.hostWrite a v rest).active = s.active := rfl
@[simp] theorem State.hostWrite_busy (s : State) (a : Half) (v : Byte) (rest : List Event) :
    (s.hostWrite a v rest).busy = s.busy := rfl
@[simp] theorem State.hostWrite_cursor (s : State) (a : Half) (v : Byte) (rest : List Event) :
    (s.hostWrite a v rest).cursor = s.cursor := rfl
@[simp] theorem State.hostWrite_regCount (s : State) (a : Half) (v : Byte) (rest : List Event) :
    (s.hostWrite a v rest).regCount = s.regCount := rfl
@[simp] theorem State.hostWrite_devs (s : State) (a : Half) (v : Byte) (rest : List Event) :
    (s.hostWrite a v rest).devs = s.devs := rfl
@[simp] theorem State.hostWrite_timer (s : State) (a : Half) (v : Byte) (rest : List Event) :
    (s.hostWrite a v rest).timer = s.timer := rfl
@[simp] theorem State.hostWrite_mem (s : State) (a : Half) (v : Byte) (rest : List Event) :
    (s.hostWrite a v rest).mem = Memory.writeByte s.mem a.toNat v := rfl
@[simp] theorem State.hostWrite_inputs (s : State) (a : Half) (v : Byte) (rest : List Event) :
    (s.hostWrite a v rest).inputs = s.inputs := rfl
@[simp] theorem State.hostWrite_response (s : State) (a : Half) (v : Byte) (rest : List Event) :
    (s.hostWrite a v rest).response = s.response := rfl
@[simp] theorem State.hostWrite_periphOut (s : State) (a : Half) (v : Byte) (rest : List Event) :
    (s.hostWrite a v rest).periphOut = s.periphOut := rfl
@[simp] theorem State.hostWrite_memOps (s : State) (a : Half) (v : Byte) (rest : List Event) :
    (s.hostWrite a v rest).memOps = s.memOps := rfl
@[simp] theorem State.hostWrite_events (s : State) (a : Half) (v : Byte) (rest : List Event) :
    (s.hostWrite a v rest).events = rest := rfl

/-! ## State.withCommand -/

@[simp] theorem State.withCommand_params (s : State) (w : Word) : (s.withCommand w).params = s.params := rfl
@[simp] theorem State.withCommand_fsm (s : State) (w : Word) : (s.withCommand w).fsm = s.fsm := rfl
@[simp] theorem State.withCommand_shadow (s : State) (w : Word) : (s.withCommand w).shadow = s.shadow := rfl
@[simp] theorem State.withCommand_active (s : State) (w : Word) : (s.withCommand w).active = s.active := rfl
@[simp] theorem State.withCommand_busy (s : State) (w : Word) : (s.withCommand w).busy = s.busy := rfl
@[simp] theorem State.withCommand_cursor (s : State) (w : Word) : (s.withCommand w).cursor = s.cursor := rfl
@[simp] theorem State.withCommand_regCount (s : State) (w : Word) : (s.withCommand w).regCount = s.regCount := rfl
@[simp] theorem State.withCommand_devs (s : State) (w : Word) : (s.withCommand w).devs = s.devs := rfl
@[simp] theorem State.withCommand_timer (s : State) (w : Word) : (s.withCommand w).timer = s.timer := rfl
@[simp] theorem State.withCommand_mem (s : State) (w : Word) : (s.withCommand w).mem = s.mem := rfl
@[simp] theorem State.withCommand_inputs (s : State) (w : Word) : (s.withCommand w).inputs = s.inputs := rfl
@[simp] theorem State.withCommand_response (s : State) (w : Word) : (s.withCommand w).response = s.response := rfl
@[simp] theorem State.withCommand_periphOut (s : State) (w : Word) : (s.withCommand w).periphOut = s.periphOut := rfl
@[simp] theorem State.withCommand_memOps (s : State) (w : Word) : (s.withCommand w).memOps = s.memOps := rfl
@[simp] theorem State.withCommand_events (s : State) (w : Word) :
    (s.withCommand w).events = .command w s.inputs :: s.events := rfl

/-- A bus command sets its shadow bit and arms the timer (R125). -/
theorem State.issue_bus (s : State) {code : PeriphCode} {b : Nat} (data : Byte) (h : code.shadowBit = some b) :
    (s.issue code data).shadow = setBit s.shadow b ∧ (s.issue code data).timer = s.timer.arm s.params := by
  simp [State.issue, h]

@[simp] theorem State.issue_readRx_shadow (s : State) (data : Byte) : (s.issue .readRx data).shadow = s.shadow := rfl
@[simp] theorem State.issue_readRx_timer (s : State) (data : Byte) : (s.issue .readRx data).timer = s.timer := rfl

/-! ## The timer -/

@[simp] theorem Timer.disarm_period (t : Timer) : t.disarm.period = t.period := rfl
@[simp] theorem Timer.disarm_count (t : Timer) : t.disarm.count = t.count := rfl
@[simp] theorem Timer.disarm_retryBudget (t : Timer) : t.disarm.retryBudget = t.retryBudget := rfl
@[simp] theorem Timer.disarm_start (t : Timer) : t.disarm.start = false := rfl
@[simp] theorem Timer.disarm_active (t : Timer) : t.disarm.active = false := rfl
@[simp] theorem Timer.disarm_expired (t : Timer) : t.disarm.expired = false := rfl
@[simp] theorem Timer.disarm_exhausted (t : Timer) : t.disarm.exhausted = false := rfl

/-- An arm from inactive loads the full countdown (R176). -/
theorem Timer.arm_of_inactive {p : Params} {t : Timer} (h : t.active = false) :
    t.arm p = { period := t.period, count := t.period, retryBudget := p.retryBudget, start := true, active := true,
                expired := false, exhausted := false } := by
  simp [Timer.arm, h]

/-- A command issued right after a disarm starts with a full countdown (R126). -/
@[simp] theorem Timer.arm_disarm (p : Params) (t : Timer) :
    t.disarm.arm p = { period := t.period, count := t.period, retryBudget := p.retryBudget, start := true, active := true,
                       expired := false, exhausted := false } :=
  Timer.arm_of_inactive rfl

/-! ## Descriptors -/

@[simp] theorem State.setDev_setDev (s : State) (h : Handle) (d e : Device) : (s.setDev h d).setDev h e = s.setDev h e := by
  simp [State.setDev]

/-- Reading the slot just written, if the file has it. -/
theorem State.devAt_setDev_same (s : State) {h : Handle} (d : Device) (hl : h.toNat < s.devs.length) :
    (s.setDev h d).devAt h.toNat = d := by
  simp [State.devAt, State.setDev, List.getD_eq_getElem?_getD, hl]

/-- Writing a slot leaves every other slot alone. -/
theorem State.devAt_setDev_other (s : State) {h : Handle} (d : Device) {j : Nat} (hj : j ≠ h.toNat) :
    (s.setDev h d).devAt j = s.devAt j := by
  simp [State.devAt, State.setDev, List.getD_eq_getElem?_getD, List.getElem?_set_ne (Ne.symm hj)]

/-- What a slot reads as after a write. -/
theorem State.devAt_setDev (s : State) {h : Handle} (d : Device) (j : Nat) (hl : h.toNat < s.devs.length) :
    (s.setDev h d).devAt j = if j = h.toNat then d else s.devAt j := by
  split
  · subst_vars; exact s.devAt_setDev_same d hl
  · exact s.devAt_setDev_other d ‹_›

theorem State.dev_setDev_same (s : State) {h : Handle} (d : Device) (hl : h.toNat < s.devs.length) :
    (s.setDev h d).dev h = d :=
  s.devAt_setDev_same d hl

/-- Descriptors are read from the file alone. -/
theorem State.devAt_congr {s t : State} (h : t.devs = s.devs) (j : Nat) : t.devAt j = s.devAt j := by
  simp [State.devAt, h]

end Sys2Proof.Machine
end

