-- ==== Sys2Proof/Laws/Transaction.lean ====
section
/-! SUPPORT. What the invariant gives, one lemma each, and one lemma for everything a shared operation of the transaction
can do: the timer, starting a transfer, a POLL by the phase it reaches. -/

namespace Sys2Proof.Machine

/-! ## Fields of a response that holds a STATUS view -/

@[simp] theorem statusView_ev (s : State) (ev : Option Signal) (b : Bool) :
    (responseWord .ok (s.statusView ev b)).extractLsb' 19 3 = evCode ev := by
  simp [responseWord, State.statusView, Status.code]

@[simp] theorem statusView_to (s : State) (ev : Option Signal) (b : Bool) :
    (responseWord .ok (s.statusView ev b)).getLsbD 18 = b := by
  simp [responseWord, State.statusView, Status.code]

/-! ## What the invariant gives -/

theorem State.Inv.slot {s : State} (hi : s.Inv) {h : Handle} (hh : h < s.regCount) : h.toNat < s.devs.length := by
  have h1 := hi.registered
  have h2 := hi.slots
  have h3 : h.toNat < s.regCount.toNat := hh
  omega

theorem State.Inv.slotOf {s : State} (hi : s.Inv) {j : Nat} (hj : j < s.regCount.toNat) : j < s.devs.length := by
  have h1 := hi.registered
  have h2 := hi.slots
  omega

theorem State.Inv.idle_of_not_busy {s : State} (hi : s.Inv) (h : s.busy = false) : s.fsm = .idle := by
  have := hi.busyIffNotIdle
  by_contra hc
  simp [h, hc] at this

theorem State.Inv.not_busy {s : State} (hi : s.Inv) (h : s.fsm = .idle) : s.busy = false := by
  have := hi.busyIffNotIdle
  simpa [h] using this

theorem State.Inv.inactive {s : State} (hi : s.Inv) (h : s.fsm = .idle) : s.timer.active = false := by
  have := hi.timerIffNotIdle
  simpa [h] using this

theorem State.Inv.activeTimer {s : State} (hi : s.Inv) (h : s.fsm ≠ .idle) : s.timer.active = true :=
  hi.timerIffNotIdle.2 h

theorem State.Inv.isBusy {s : State} (hi : s.Inv) (h : s.fsm ≠ .idle) : s.busy = true := hi.busyIffNotIdle.2 h

theorem State.Inv.activeHandle {s : State} (hi : s.Inv) (h : s.fsm ≠ .idle) : s.active < s.regCount :=
  hi.activeRegistered (hi.isBusy h)

theorem State.Inv.activeSlot {s : State} (hi : s.Inv) (h : s.fsm ≠ .idle) : s.active.toNat < s.devs.length :=
  hi.slot (hi.activeHandle h)

theorem State.Inv.shadowIdle {s : State} (hi : s.Inv) (h : s.fsm = .idle) : s.shadow = 0 := by
  have := hi.shadowOne; rw [h] at this; exact this

theorem State.Inv.shadowStart {s : State} (hi : s.Inv) (h : s.fsm = .start) : s.shadow = 0b100000#6 := by
  have := hi.shadowOne; rw [h] at this; exact this

theorem State.Inv.shadowAddress {s : State} (hi : s.Inv) (h : s.fsm = .writeAddress) : s.shadow = 0b000010#6 := by
  have := hi.shadowOne; rw [h] at this; exact this

theorem State.Inv.shadowRestart {s : State} (hi : s.Inv) (h : s.fsm = .restart) : s.shadow = 0b010000#6 := by
  have := hi.shadowOne; rw [h] at this; exact this

theorem State.Inv.shadowStop {s : State} (hi : s.Inv) (h : s.fsm = .stop) : s.shadow = 0b001000#6 := by
  have := hi.shadowOne; rw [h] at this; exact this

theorem State.Inv.startCounts {s : State} (hi : s.Inv) (h : s.fsm = .start) :
    (s.dev s.active).wcount = 0 ∧ (s.dev s.active).rcount = 0 := by
  have := hi.progress; rw [h] at this; exact this

theorem State.Inv.addressCounts {s : State} (hi : s.Inv) (h : s.fsm = .writeAddress) :
    (s.dev s.active).wcount = 0 ∧ (s.dev s.active).rcount = 0 := by
  have := hi.progress; rw [h] at this; exact this

theorem State.Inv.moreToSend {s : State} (hi : s.Inv) (h : s.fsm = .writeData) :
    (s.dev s.active).wcount < (s.dev s.active).nsend := by
  have := hi.progress; rw [h] at this; exact this

theorem State.Inv.moreToRead {s : State} (hi : s.Inv) (h : s.fsm = .readData) (hs : s.shadow = 0b000001#6) :
    (s.dev s.active).rcount < (s.dev s.active).nread := by
  have := hi.progress; rw [h] at this; exact this.2 hs

theorem State.Inv.readsOnly {s : State} (hi : s.Inv) (h : s.fsm = .readData) : (s.dev s.active).masterRead = true := by
  have := hi.progress; rw [h] at this; exact this.1

/-! ## The address byte -/

/-- R122 with the R/W bit as a condition. -/
theorem Device.addrByte_eq (d : Device) :
    d.addrByte = d.addr7 ++ (if d.nsend = 0 ∧ 0 < d.nread then 1#1 else 0#1) := by
  have h : BitVec.ofBool d.masterRead = if d.nsend = 0 ∧ 0 < d.nread then 1#1 else 0#1 := by
    unfold Device.masterRead
    split <;> rename_i h
    · simp only [h.1, h.2, decide_true, Bool.and_self]; rfl
    · rw [← Bool.decide_and, decide_eq_false h]; rfl
  rw [Device.addrByte, h]

/-! ## Starting a transfer -/

/-- R127 on an idle block. -/
theorem State.startTransfer_start {s : State} {h : Handle} (hr : (s.dev h).rspend = false) (ht : s.timer.active = false)
    (hs : s.shadow = 0) :
    s.startTransfer h = { s with
        active := h, busy := true, devs := s.devs.set h.toNat { s.dev h with state := .inProgress }
        fsm := .start, shadow := 0b100000#6, timer := s.armedTimer, periphOut := s.periphOut ++ [⟨.issueStart, 0⟩] } := by
  simp [State.startTransfer, hr, State.issue, PeriphCode.shadowBit, State.setDev, Timer.arm_of_inactive ht, hs, setBit,
    State.armedTimer]

/-- R128 on an idle block. -/
theorem State.startTransfer_skip {s : State} {h : Handle} (hr : (s.dev h).rspend = true) (ht : s.timer.active = false)
    (hs : s.shadow = 0) :
    s.startTransfer h = { s with
        active := h, busy := true, devs := s.devs.set h.toNat { s.dev h with state := .inProgress, rspend := false }
        fsm := .writeAddress, shadow := 0b000010#6, timer := s.armedTimer
        periphOut := s.periphOut ++ [⟨.transmit, (s.dev h).addrByte⟩] } := by
  simp [State.startTransfer, hr, State.issue, PeriphCode.shadowBit, State.setDev, Timer.arm_of_inactive ht, hs, setBit,
    State.armedTimer]

/-- A consuming transition (R124 to R126): the timer ends as a fresh one, with one command out. -/
theorem State.proceed_eq (s : State) {code : PeriphCode} {b : Nat} (hb : code.shadowBit = some b) (data : Byte)
    (next : FsmState) :
    s.proceed code data next = { s with
        fsm := next, shadow := setBit s.shadow b, timer := s.armedTimer, periphOut := s.periphOut ++ [⟨code, data⟩] } := by
  simp [State.proceed, State.disarm, State.issue, hb, State.armedTimer]

/-! ## The tick -/

/-- R178, first case. -/
theorem Timer.tick_counts {t : Timer} (ha : t.active = true) (hc : 1 < t.count) :
    t.tick = { timer := { t with count := t.count - 1 }, timeout := false, exhausted := false } := by
  simp only [Timer.tick, ha, if_pos hc, if_true]

/-- R178, an expiry with budget left. -/
theorem Timer.tick_expires {t : Timer} (ha : t.active = true) (hc : t.count ≤ 1) (hb : t.retryBudget ≠ 1) :
    t.tick = { timer := { t with count := t.period, retryBudget := t.retryBudget - 1, expired := true },
               timeout := true, exhausted := false } := by
  have h1 : ¬ 1 < t.count := BitVec.not_lt.2 hc
  have h2 : ¬ t.retryBudget - 1 = 0 := by
    intro h; apply hb; bv_omega
  simp only [Timer.tick, ha, if_neg h1, if_neg h2, if_true]

/-- R178, the expiry that exhausts the budget. -/
theorem Timer.tick_exhausts {t : Timer} (ha : t.active = true) (hc : t.count ≤ 1) (hb : t.retryBudget = 1) :
    t.tick = { timer := { t with count := 0, retryBudget := 0, expired := true, exhausted := true, active := false },
               timeout := true, exhausted := true } := by
  have h1 : ¬ 1 < t.count := BitVec.not_lt.2 hc
  simp only [Timer.tick, ha, if_neg h1, hb, if_true]
  rfl

/-- The tick leaves the period and tStart alone. -/
@[simp] theorem Timer.tick_period (t : Timer) : t.tick.timer.period = t.period := by
  unfold Timer.tick; split <;> [split; rfl] <;> [rfl; split] <;> rfl

@[simp] theorem Timer.tick_start (t : Timer) : t.tick.timer.start = t.start := by
  unfold Timer.tick; split <;> [split; rfl] <;> [rfl; split] <;> rfl

/-- A tick that does not exhaust the budget. -/
theorem State.tick_survives {s : State} (ha : s.timer.active = true) (h : s.TickSurvives) :
    s.timer.tick.exhausted = false ∧ s.timer.tick.timer.active = true ∧
    s.timer.tick.timer.count = (if 1 < s.timer.count then s.timer.count - 1 else s.timer.period) ∧
    s.timer.tick.timer.retryBudget = (if 1 < s.timer.count then s.timer.retryBudget else s.timer.retryBudget - 1) := by
  by_cases hc : 1 < s.timer.count
  · rw [Timer.tick_counts ha hc, if_pos hc, if_pos hc]; exact ⟨rfl, ha, rfl, rfl⟩
  · have hc' : s.timer.count ≤ 1 := BitVec.not_lt.1 hc
    have hb : s.timer.retryBudget ≠ 1 := fun hb => h ⟨ha, hc', hb⟩
    rw [Timer.tick_expires ha hc' hb, if_neg hc, if_neg hc]; exact ⟨rfl, ha, rfl, rfl⟩

/-! ## The adapter -/

/-- The one outstanding action of a bit that waits on nothing but its live bit has completed. -/
theorem firingBit_single {x : PeriphInputs} {b : Nat} (hb : b ∈ [5, 4, 3, 2]) (hl : x.live.getLsbD b = false) :
    firingBit (1#6 <<< b) x = some b := by
  simp only [List.mem_cons, List.not_mem_nil, or_false] at hb
  rcases hb with rfl | rfl | rfl | rfl <;> simp [firingBit, fires, List.find?, -BitVec.getLsbD_eq_getElem, hl]

/-- The outstanding transmit has completed. -/
theorem firingBit_transmit {x : PeriphInputs} (hl : x.live.getLsbD 1 = false) (ht : x.trf = false) :
    firingBit 0b000010#6 x = some 1 := by
  simp [firingBit, fires, List.find?, -BitVec.getLsbD_eq_getElem, hl, ht]

/-- The outstanding receive has completed. -/
theorem firingBit_receive {x : PeriphInputs} (hl : x.live.getLsbD 0 = false) (ht : x.rda = true) :
    firingBit 0b000001#6 x = some 0 := by
  simp [firingBit, fires, List.find?, -BitVec.getLsbD_eq_getElem, hl, ht]

/-- `Fire(b)` as a proposition (R162 to R164). -/
theorem fires_iff (shadow : BitVec 6) (x : PeriphInputs) (i : Nat) : fires shadow x i = true ↔ actionCompletes shadow x i := by
  unfold fires actionCompletes
  by_cases h1 : i = 1
  · subst h1; cases shadow.getLsbD 1 <;> cases x.live.getLsbD 1 <;> cases x.trf <;> simp
  · by_cases h0 : i = 0
    · subst h0; cases shadow.getLsbD 0 <;> cases x.live.getLsbD 0 <;> cases x.rda <;> simp
    · simp [h1, h0]

/-- The adapter produces no signal exactly when nothing completes (R165). -/
theorem firingBit_none_iff (shadow : BitVec 6) (x : PeriphInputs) : firingBit shadow x = none ↔ nothingCompletes shadow x := by
  unfold firingBit nothingCompletes
  rw [List.find?_eq_none]
  refine ⟨fun h i hi => ?_, fun h i _ => fun hi => h i ((fires_iff shadow x i).1 hi)⟩
  by_cases h6 : i < 6
  · exact h i (by simp; omega) ((fires_iff shadow x i).2 hi)
  · have := hi.1
    rw [BitVec.getLsbD_of_ge shadow i (by omega)] at this
    cases this

/-- With nothing outstanding, nothing completes. -/
theorem nothingCompletes_zero (x : PeriphInputs) : nothingCompletes 0#6 x := fun i h => by
  have := h.1; simp at this

/-! ## POLL, by the phase it reaches -/

/-- R203: a POLL by what its phases leave. -/
theorem poll_of_phases {s t : State} {ev : Option Signal} {b : Bool}
    (h : pollPhases s = { state := t, ev := ev, timeout := b }) :
    ∃ r : Word, exec .poll s = .next { t with response := some r } ∧
      r.extractLsb' 19 3 = evCode ev ∧ r.getLsbD 18 = b := by
  refine ⟨responseWord .ok (t.statusView ev b), ?_, statusView_ev _ _ _, statusView_to _ _ _⟩
  simp only [exec, execPoll, h]
  rfl

/-- R201, R255: the tick exhausts the budget. -/
theorem pollPhases_exhausts {s : State} (hf : s.fsm ≠ .idle) (ha : s.timer.active = true) (hc : s.timer.count ≤ 1)
    (hb : s.timer.retryBudget = 1) :
    pollPhases s = {
      state := ({ s with timer := { s.timer with
        count := 0, retryBudget := 0, expired := true, exhausted := true, active := false } } : State).abort
      ev := some .retryExhausted, timeout := true } := by
  simp [pollPhases, hf, busyPhases, Timer.tick_exhausts ha hc hb, transition]

/-- R202: an action completes in this POLL. -/
theorem pollPhases_completes {s : State} (hf : s.fsm ≠ .idle) (ha : s.timer.active = true) (ht : s.TickSurvives) {b : Nat}
    (hb : firingBit s.shadow s.inputs = some b) :
    pollPhases s = {
      state := transition (completionSignal b) { s with timer := s.timer.tick.timer, shadow := clearBit s.shadow b }
      ev := some (completionSignal b), timeout := s.timer.tick.timeout } := by
  simp [pollPhases, hf, busyPhases, (State.tick_survives ha ht).1, adapterPhase, hb]

/-- R202, R145: nothing completes in this POLL. -/
theorem pollPhases_waits {s : State} (hf : s.fsm ≠ .idle) (ha : s.timer.active = true) (ht : s.TickSurvives)
    (hb : firingBit s.shadow s.inputs = none) :
    pollPhases s = {
      state := { s with timer := s.timer.tick.timer }
      ev := if s.timer.tick.timeout then some .timeout else none, timeout := s.timer.tick.timeout } := by
  simp [pollPhases, hf, busyPhases, (State.tick_survives ha ht).1, adapterPhase, hb]

/-- R202, R203: the POLL in which an action completes, by the state its transition leaves. -/
theorem poll_completes {s t : State} (hi : s.Inv) (hf : s.fsm ≠ .idle) (ht : s.TickSurvives) {b : Nat}
    (hb : firingBit s.shadow s.inputs = some b)
    (hs : transition (completionSignal b) { s with timer := s.timer.tick.timer, shadow := clearBit s.shadow b } = t) :
    ∃ r : Word, exec .poll s = .next { t with response := some r } ∧
      r.extractLsb' 19 3 = (completionSignal b).code := by
  subst hs
  obtain ⟨r, h1, h2, -⟩ := poll_of_phases (pollPhases_completes hf (hi.activeTimer hf) ht hb)
  exact ⟨r, h1, h2⟩

end Sys2Proof.Machine
end

