-- ==== Sys2Proof/Laws/Poll.lean ====
section
/-! SUPPORT. Everything a POLL can do in a state that meets the invariant, said once. -/

namespace Sys2Proof.Machine

/-- The active device's descriptor. -/
abbrev State.activeDev (s : State) : Device := s.dev s.active

/-- The state after a completed action that issues the bus command `code` with shadow bits `shadow`, and goes to `fsm`. -/
def State.moved (s : State) (fsm : FsmState) (shadow : BitVec 6) (out : List PeriphCmd) : State :=
  { s with fsm := fsm, shadow := shadow, timer := s.armedTimer, periphOut := s.periphOut ++ out }

/-- The state after the end of a transaction, the active device's descriptor becoming `d`. -/
def State.ended (s : State) (timer : Timer) (d : Device) : State :=
  { s with
    fsm := .idle, busy := false, shadow := 0, devs := s.devs.set s.active.toNat d
    cursor := ({ s with devs := s.devs.set s.active.toNat d } : State).nextCursor s.active, timer := timer }

/-- What the phases of a POLL may leave of `s`, and when. -/
inductive PollMove (s : State) : PollResult → Prop where
  /-- R198: nothing to start. -/
  | quiet (hf : s.fsm = .idle) (hs : s.scheduled = none) : PollMove s { state := s, ev := none, timeout := false }
  /-- R198, R127. -/
  | start (j : Handle) (hf : s.fsm = .idle) (hs : s.scheduled = some j) (hr : (s.dev j).rspend = false) :
    PollMove s {
      state := { s with
        cursor := j, active := j, busy := true, devs := s.devs.set j.toNat { s.dev j with state := .inProgress }
        fsm := .start, shadow := 0b100000#6, timer := s.armedTimer, periphOut := s.periphOut ++ [⟨.issueStart, 0⟩] }
      ev := some .beginTransfer, timeout := false }
  /-- R198, R128. -/
  | skip (j : Handle) (hf : s.fsm = .idle) (hs : s.scheduled = some j) (hr : (s.dev j).rspend = true) :
    PollMove s {
      state := { s with
        cursor := j, active := j, busy := true
        devs := s.devs.set j.toNat { s.dev j with state := .inProgress, rspend := false }
        fsm := .writeAddress, shadow := 0b000010#6, timer := s.armedTimer
        periphOut := s.periphOut ++ [⟨.transmit, (s.dev j).addrByte⟩] }
      ev := some .beginTransfer, timeout := false }
  /-- R201, R256. -/
  | abort (hf : s.fsm ≠ .idle) (hc : s.timer.count ≤ 1) (hb : s.timer.retryBudget = 1) :
    PollMove s {
      state := s.ended
        { s.timer with count := 0, retryBudget := 0, expired := true, exhausted := true, active := false }
        { s.activeDev with finished := true, result := .retryExhausted, state := .idle, rspend := false, genrs := false }
      ev := some .retryExhausted, timeout := true }
  /-- R202: no action completes. -/
  | waits (hf : s.fsm ≠ .idle) (ht : s.TickSurvives) (hb : firingBit s.shadow s.inputs = none) :
    PollMove s {
      state := { s with timer := s.timer.tick.timer }
      ev := if s.timer.tick.timeout then some .timeout else none, timeout := s.timer.tick.timeout }
  /-- R129. -/
  | startDone (hf : s.fsm = .start) (ht : s.TickSurvives) :
    PollMove s {
      state := s.moved .writeAddress 0b000010#6 [⟨.transmit, s.activeDev.addrByte⟩]
      ev := some .busIdle, timeout := s.timer.tick.timeout }
  /-- R130. -/
  | addressRead (hf : s.fsm = .writeAddress) (ht : s.TickSurvives) (hk : s.inputs.ackstat = true)
    (hn : s.activeDev.nsend = 0) (hm : 0 < s.activeDev.nread) :
    PollMove s {
      state := s.moved .readData 0b000001#6 [⟨.enableRx, 0⟩], ev := some .busIdle, timeout := s.timer.tick.timeout }
  /-- R131. -/
  | addressWrite (hf : s.fsm = .writeAddress) (ht : s.TickSurvives) (hk : s.inputs.ackstat = true)
    (hn : 0 < s.activeDev.nsend) :
    PollMove s {
      state := { s.moved .writeData 0b000010#6 [⟨.transmit, s.readByte s.activeDev.writeAddr⟩] with
        memOps := s.memOps ++ [.read s.activeDev.writeAddr (s.readByte s.activeDev.writeAddr)] }
      ev := some .busIdle, timeout := s.timer.tick.timeout }
  /-- R132. -/
  | addressRestart (hf : s.fsm = .writeAddress) (ht : s.TickSurvives) (hk : s.inputs.ackstat = true)
    (hn : ¬ 0 < s.activeDev.nsend) (hm : ¬ 0 < s.activeDev.nread) (hg : s.activeDev.genrs = true) :
    PollMove s {
      state := s.moved .restart 0b010000#6 [⟨.issueRestart, 0⟩], ev := some .busIdle, timeout := s.timer.tick.timeout }
  /-- R133. -/
  | addressStop (hf : s.fsm = .writeAddress) (ht : s.TickSurvives) (hk : s.inputs.ackstat = true)
    (hn : ¬ 0 < s.activeDev.nsend) (hm : ¬ 0 < s.activeDev.nread) (hg : s.activeDev.genrs = false) :
    PollMove s {
      state := s.moved .stop 0b001000#6 [⟨.issueStop, 0⟩], ev := some .busIdle, timeout := s.timer.tick.timeout }
  /-- R134. -/
  | addressNack (hf : s.fsm = .writeAddress) (ht : s.TickSurvives) (hk : s.inputs.ackstat = false) :
    PollMove s {
      state := { s.moved .stop 0b001000#6 [⟨.issueStop, 0⟩] with
        devs := s.devs.set s.active.toNat { s.activeDev with result := .addressNack } }
      ev := some .busIdle, timeout := s.timer.tick.timeout }
  /-- R135. -/
  | dataNext (hf : s.fsm = .writeData) (ht : s.TickSurvives) (hk : s.inputs.ackstat = true)
    (hn : s.activeDev.wcount + 1 < s.activeDev.nsend) :
    PollMove s {
      state := { s.moved .writeData 0b000010#6
          [⟨.transmit, s.readByte (s.activeDev.wbase + (s.activeDev.wcount + 1))⟩] with
        devs := s.devs.set s.active.toNat { s.activeDev with wcount := s.activeDev.wcount + 1 }
        memOps := s.memOps ++ [.read (s.activeDev.wbase + (s.activeDev.wcount + 1))
          (s.readByte (s.activeDev.wbase + (s.activeDev.wcount + 1)))] }
      ev := some .busIdle, timeout := s.timer.tick.timeout }
  /-- R136. -/
  | dataRestart (hf : s.fsm = .writeData) (ht : s.TickSurvives) (hk : s.inputs.ackstat = true)
    (hn : s.activeDev.wcount + 1 = s.activeDev.nsend) (hg : s.activeDev.genrs = true) :
    PollMove s {
      state := { s.moved .restart 0b010000#6 [⟨.issueRestart, 0⟩] with
        devs := s.devs.set s.active.toNat { s.activeDev with wcount := s.activeDev.wcount + 1 } }
      ev := some .busIdle, timeout := s.timer.tick.timeout }
  /-- R137. -/
  | dataStop (hf : s.fsm = .writeData) (ht : s.TickSurvives) (hk : s.inputs.ackstat = true)
    (hn : s.activeDev.wcount + 1 = s.activeDev.nsend) (hg : s.activeDev.genrs = false) :
    PollMove s {
      state := { s.moved .stop 0b001000#6 [⟨.issueStop, 0⟩] with
        devs := s.devs.set s.active.toNat { s.activeDev with wcount := s.activeDev.wcount + 1 } }
      ev := some .busIdle, timeout := s.timer.tick.timeout }
  /-- R138. -/
  | dataNack (hf : s.fsm = .writeData) (ht : s.TickSurvives) (hk : s.inputs.ackstat = false) :
    PollMove s {
      state := { s with shadow := 0, timer := s.timer.tick.timer }
      ev := some .busIdle, timeout := s.timer.tick.timeout }
  /-- R139. -/
  | restartDone (hf : s.fsm = .restart) (ht : s.TickSurvives) :
    PollMove s {
      state := s.ended s.timer.tick.timer.disarm
        { s.activeDev with rspend := true, genrs := false, finished := true, state := .idle }
      ev := some .busIdle, timeout := s.timer.tick.timeout }
  /-- R140. -/
  | stopDone (hf : s.fsm = .stop) (ht : s.TickSurvives) :
    PollMove s {
      state := s.ended s.timer.tick.timer.disarm { s.activeDev with finished := true, state := .idle }
      ev := some .busIdle, timeout := s.timer.tick.timeout }
  /-- R141. -/
  | received (hf : s.fsm = .readData) (ht : s.TickSurvives) (hs : s.shadow = 0b000001#6) :
    PollMove s {
      state := { s.moved .readData 0b000100#6
          [⟨.readRx, 0⟩, ⟨.sendAck, if s.activeDev.rcount + 1 < s.activeDev.nread then 1 else 0⟩] with
        devs := s.devs.set s.active.toNat { s.activeDev with rcount := s.activeDev.rcount + 1 }
        mem := Memory.writeByte s.mem s.activeDev.readAddr.toNat s.inputs.rxdata
        memOps := s.memOps ++ [.write s.activeDev.readAddr s.inputs.rxdata] }
      ev := some .dataReceived, timeout := s.timer.tick.timeout }
  /-- R142. -/
  | readNext (hf : s.fsm = .readData) (ht : s.TickSurvives) (hs : s.shadow = 0b000100#6)
    (hn : s.activeDev.rcount < s.activeDev.nread) :
    PollMove s {
      state := s.moved .readData 0b000001#6 [⟨.enableRx, 0⟩], ev := some .busIdle, timeout := s.timer.tick.timeout }
  /-- R143. -/
  | readStop (hf : s.fsm = .readData) (ht : s.TickSurvives) (hs : s.shadow = 0b000100#6)
    (hn : s.activeDev.rcount = s.activeDev.nread) :
    PollMove s {
      state := s.moved .stop 0b001000#6 [⟨.issueStop, 0⟩], ev := some .busIdle, timeout := s.timer.tick.timeout }

/-- A move, its state written another way. -/
theorem PollMove.of_state {s t t' : State} {ev : Option Signal} {b : Bool}
    (h : PollMove s { state := t, ev := ev, timeout := b }) (e : t' = t) :
    PollMove s { state := t', ev := ev, timeout := b } := e ▸ h

/-- Only an outstanding action can complete. -/
theorem firingBit_set {shadow : BitVec 6} {x : PeriphInputs} {b : Nat} (h : firingBit shadow x = some b) :
    shadow.getLsbD b = true ∧ b < 6 := by
  have h1 := List.find?_some h
  have h2 := List.mem_of_find?_eq_some h
  simp only [fires, Bool.and_eq_true] at h1
  refine ⟨h1.1.1, ?_⟩
  simp at h2
  omega

/-- A single outstanding action is the one that completes. -/
theorem firingBit_eq {shadow : BitVec 6} {x : PeriphInputs} {b c : Nat} (h : firingBit shadow x = some b)
    (hs : shadow = 1#6 <<< c) : b = c := by
  obtain ⟨h1, h2⟩ := firingBit_set h
  subst hs
  simp only [BitVec.getLsbD_shiftLeft, Bool.and_eq_true, decide_eq_true_eq, Bool.not_eq_true', decide_eq_false_iff_not] at h1
  have h4 : b - c = 0 := by
    by_contra hc
    rw [BitVec.getLsbD_one] at h1
    simp [hc] at h1
  omega

/-- Everything a POLL can do. -/
theorem pollPhases_move {s : State} (hi : s.Inv) : PollMove s (pollPhases s) := by
  by_cases hf : s.fsm = .idle
  · cases hs : s.scheduled with
    | none =>
      have : pollPhases s = { state := s, ev := none, timeout := false } := by
        simp only [pollPhases, hf, if_true, schedulePhase, hs]
      rw [this]; exact .quiet hf hs
    | some j =>
      have hx : pollPhases s =
          { state := ({ s with cursor := j } : State).startTransfer j, ev := some .beginTransfer, timeout := false } := by
        simp only [pollPhases, hf, if_true, schedulePhase, hs]
      rw [hx]
      cases hr : (s.dev j).rspend
      · rw [State.startTransfer_start (s := { s with cursor := j }) (h := j) hr (hi.inactive hf) (hi.shadowIdle hf)]
        exact .start j hf hs hr
      · rw [State.startTransfer_skip (s := { s with cursor := j }) (h := j) hr (hi.inactive hf) (hi.shadowIdle hf)]
        exact .skip j hf hs hr
  · have ha := hi.activeTimer hf
    have hsl := hi.activeSlot hf
    by_cases ht : s.TickSurvives
    · cases hb : firingBit s.shadow s.inputs with
      | none => rw [pollPhases_waits hf ha ht hb]; exact .waits hf ht hb
      | some b =>
        rw [pollPhases_completes hf ha ht hb]
        cases hfs : s.fsm with
        | idle => exact absurd hfs hf
        | start =>
          have hs := hi.shadowStart hfs
          obtain rfl := firingBit_eq (c := 5) hb hs
          refine PollMove.of_state (PollMove.startDone hfs ht) ?_
          simp [transition, completionSignal, onBusIdle, onStart, State.proceed_eq _ (code := .transmit) (b := 1) rfl,
            State.moved, clearBit, setBit, hs, State.armedTimer, State.dev, State.devAt]
        | writeAddress =>
          have hs := hi.shadowAddress hfs
          obtain rfl := firingBit_eq (c := 1) hb hs
          cases hk : s.inputs.ackstat
          · refine PollMove.of_state (PollMove.addressNack hfs ht hk) ?_
            simp [transition, completionSignal, onBusIdle, onWriteAddress, hk, State.setDev, State.dev, State.devAt,
              State.proceed_eq _ (code := .issueStop) (b := 3) rfl, State.moved, clearBit, setBit, hs, State.armedTimer]
          · by_cases hn : 0 < s.activeDev.nsend
            · refine PollMove.of_state (PollMove.addressWrite hfs ht hk hn) ?_
              have hm : s.activeDev.masterRead = false := by
                have hz : ¬ s.activeDev.nsend = 0 := (BitVec.pos_iff_ne_zero _).1 hn
                simp only [Device.masterRead, decide_eq_false hz, Bool.false_and]
              simp only [State.activeDev, State.dev, State.devAt] at hm hn
              simp only [transition, completionSignal, onBusIdle, onWriteAddress, hk, hm, State.dev, State.devAt, hn,
                State.proceed_eq _ (code := .transmit) (b := 1) rfl, State.moved, clearBit, setBit, hs, State.armedTimer,
                State.noteRead, State.readByte]
              simp
            · have hz : s.activeDev.nsend = 0 := by
                by_contra hc; exact hn ((BitVec.pos_iff_ne_zero _).2 hc)
              by_cases hr : 0 < s.activeDev.nread
              · refine PollMove.of_state (PollMove.addressRead hfs ht hk hz hr) ?_
                have hm : s.activeDev.masterRead = true := by
                  simp only [Device.masterRead, hz, hr, decide_true, Bool.and_self]
                simp only [State.activeDev, State.dev, State.devAt] at hm hn
                simp only [transition, completionSignal, onBusIdle, onWriteAddress, hk, hm, State.dev, State.devAt,
                  State.proceed_eq _ (code := .enableRx) (b := 0) rfl, State.moved, clearBit, setBit, hs, State.armedTimer]
                simp
              · have hm : s.activeDev.masterRead = false := by
                  simp only [Device.masterRead, decide_eq_false hr, Bool.and_false]
                cases hg : s.activeDev.genrs
                · refine PollMove.of_state (PollMove.addressStop hfs ht hk hn hr hg) ?_
                  simp only [State.activeDev, State.dev, State.devAt] at hm hn hg
                  simp only [transition, completionSignal, onBusIdle, onWriteAddress, hk, hm, if_neg hn, hg, State.dev,
                    State.devAt, State.endWrite, State.proceed_eq _ (code := .issueStop) (b := 3) rfl, State.moved, clearBit,
                    setBit, hs, State.armedTimer]
                  simp
                · refine PollMove.of_state (PollMove.addressRestart hfs ht hk hn hr hg) ?_
                  simp only [State.activeDev, State.dev, State.devAt] at hm hn hg
                  simp only [transition, completionSignal, onBusIdle, onWriteAddress, hk, hm, if_neg hn, hg, State.dev,
                    State.devAt, State.endWrite, State.proceed_eq _ (code := .issueRestart) (b := 4) rfl, State.moved,
                    clearBit, setBit, hs, State.armedTimer]
                  simp
        | writeData =>
          have hs : s.shadow = 0b000010#6 := by
            have := hi.shadowOne
            rw [hfs] at this
            rcases this with h | h
            · exact h
            · rw [h] at hb; exact absurd (firingBit_set hb).1 (by simp)
          obtain rfl := firingBit_eq (c := 1) hb hs
          cases hk : s.inputs.ackstat
          · refine PollMove.of_state (PollMove.dataNack hfs ht hk) ?_
            simp [transition, completionSignal, onBusIdle, hfs, onWriteData, hk, clearBit, hs]
          · have hlt := hi.moreToSend hfs
            by_cases hn : s.activeDev.wcount + 1 < s.activeDev.nsend
            · refine PollMove.of_state (PollMove.dataNext hfs ht hk hn) ?_
              simp only [State.activeDev, State.dev, State.devAt] at hn
              simp only [transition, completionSignal, onBusIdle, onWriteData, hk, if_pos hn, State.setDev, State.dev,
                State.devAt, State.proceed_eq _ (code := .transmit) (b := 1) rfl, State.moved, clearBit, setBit, hs,
                State.armedTimer, Device.writeAddr, State.noteRead, State.readByte]
              simp
            · have he : s.activeDev.wcount + 1 = s.activeDev.nsend := by
                simp only [State.activeDev] at hn ⊢
                bv_omega
              cases hg : s.activeDev.genrs
              · refine PollMove.of_state (PollMove.dataStop hfs ht hk he hg) ?_
                simp only [State.activeDev, State.dev, State.devAt] at hn he hg
                simp only [transition, completionSignal, onBusIdle, onWriteData, hk, if_neg hn, if_pos he, hg,
                  State.setDev, State.dev, State.devAt, State.endWrite, State.proceed_eq _ (code := .issueStop) (b := 3) rfl,
                  State.moved, clearBit, setBit, hs, State.armedTimer]
                simp
              · refine PollMove.of_state (PollMove.dataRestart hfs ht hk he hg) ?_
                simp only [State.activeDev, State.dev, State.devAt] at hn he hg
                simp only [transition, completionSignal, onBusIdle, onWriteData, hk, if_neg hn, if_pos he, hg,
                  State.setDev, State.dev, State.devAt, State.endWrite,
                  State.proceed_eq _ (code := .issueRestart) (b := 4) rfl, State.moved, clearBit, setBit, hs,
                  State.armedTimer]
                simp
        | restart =>
          have hs := hi.shadowRestart hfs
          obtain rfl := firingBit_eq (c := 4) hb hs
          refine PollMove.of_state (PollMove.restartDone hfs ht) ?_
          simp [transition, completionSignal, onBusIdle, onRestart, State.complete, State.setDev, State.disarm,
            State.dev, State.devAt, hsl, clearBit, hs, State.ended, State.nextCursor, State.isRequested]
        | stop =>
          have hs := hi.shadowStop hfs
          obtain rfl := firingBit_eq (c := 3) hb hs
          refine PollMove.of_state (PollMove.stopDone hfs ht) ?_
          simp [transition, completionSignal, onBusIdle, onStop, State.complete, State.setDev, State.disarm,
            State.dev, State.devAt, clearBit, hs, State.ended, State.nextCursor, State.isRequested]
        | readData =>
          have hs := hi.shadowOne
          rw [hfs] at hs
          rcases hs with hs | hs
          · obtain rfl := firingBit_eq (c := 0) hb hs
            refine PollMove.of_state (PollMove.received hfs ht hs) ?_
            simp [transition, completionSignal, onDataReceived, State.disarm, State.issue, PeriphCode.shadowBit,
              State.memWrite, State.setDev, State.dev, State.devAt, clearBit, hs, setBit, State.moved, State.armedTimer]
          · obtain rfl := firingBit_eq (c := 2) hb hs
            by_cases hn : s.activeDev.rcount < s.activeDev.nread
            · refine PollMove.of_state (PollMove.readNext hfs ht hs hn) ?_
              simp only [State.activeDev, State.dev, State.devAt] at hn
              simp only [transition, completionSignal, onBusIdle, onReadDataBusIdle, if_pos hn, State.dev, State.devAt,
                State.proceed_eq _ (code := .enableRx) (b := 0) rfl, State.moved, clearBit, setBit, hs, State.armedTimer]
              simp
            · have hle := (hi.countsBounded s.active.toNat (hi.activeHandle hf)).2
              have he : s.activeDev.rcount = s.activeDev.nread := by
                simp only [State.activeDev, State.dev] at hn hle ⊢
                bv_omega
              refine PollMove.of_state (PollMove.readStop hfs ht hs he) ?_
              simp only [State.activeDev, State.dev, State.devAt] at hn he
              simp only [transition, completionSignal, onBusIdle, onReadDataBusIdle, if_neg hn, if_pos he, State.dev,
                State.devAt, State.proceed_eq _ (code := .issueStop) (b := 3) rfl, State.moved, clearBit, setBit, hs,
                State.armedTimer]
              simp
    · have h : s.timer.active = true ∧ s.timer.count ≤ 1 ∧ s.timer.retryBudget = 1 := by
        by_contra hc; exact ht hc
      rw [pollPhases_exhausts hf ha h.2.1 h.2.2]
      exact .abort hf h.2.1 h.2.2

/-! ## Slots -/

theorem getD_set_ne {l : List Device} {i j : Nat} (d e : Device) (h : j ≠ i) : (l.set i d).getD j e = l.getD j e := by
  simp [List.getD, List.getElem?_set_ne (Ne.symm h)]

theorem getD_set_eq {l : List Device} {i : Nat} (d e : Device) (h : i < l.length) : (l.set i d).getD i e = d := by
  simp [List.getD, h]

/-- Writing a slot's own descriptor back changes nothing. -/
theorem State.devs_set_self {s : State} {i : Nat} (h : i < s.devs.length) : s.devs.set i (s.devAt i) = s.devs := by
  simp only [State.devAt, List.getD_eq_getElem?_getD, List.getElem?_eq_getElem h, Option.getD_some, List.set_getElem_self]

/-- The scheduler names a registered, eligible device (R198). -/
theorem State.scheduled_spec {s : State} {j : Handle} (hs : s.scheduled = some j) :
    j < s.regCount ∧ s.eligible j.toNat = true := by
  unfold State.scheduled at hs
  simp only at hs
  split at hs
  · rename_i k hk
    simp only [Option.some.injEq] at hs
    have h1 := List.find?_some hk
    have h2 := List.mem_of_find?_eq_some hk
    simp at h2
    have hlt : (s.cursor.toNat + k) % s.regCount.toNat < s.regCount.toNat := Nat.mod_lt _ (by omega)
    have h3 : j.toNat = (s.cursor.toNat + k) % s.regCount.toNat := by
      rw [← hs, BitVec.toNat_ofNat, Nat.mod_eq_of_lt (lt_trans hlt s.regCount.isLt)]
    refine ⟨?_, by rw [h3]; exact h1⟩
    show j.toNat < _
    rw [h3]; exact hlt
  · simp at hs

/-- `NextCursor` names a registered device (R212). -/
theorem State.nextCursor_lt {s : State} (a : Handle) (h : 0 < s.regCount.toNat) : s.nextCursor a < s.regCount := by
  have hlt : ∀ k, (BitVec.ofNat 8 ((a.toNat + k) % s.regCount.toNat)).toNat < s.regCount.toNat := by
    intro k
    have : (a.toNat + k) % s.regCount.toNat < s.regCount.toNat := Nat.mod_lt _ h
    rw [BitVec.toNat_ofNat, Nat.mod_eq_of_lt (lt_trans this s.regCount.isLt)]
    exact this
  show (s.nextCursor a).toNat < _
  simp only [State.nextCursor]
  split <;> exact hlt _

/-- Eligible to the scheduler, as a proposition (R199). -/
theorem State.eligible_iff (s : State) (j : Nat) : s.eligible j = true ↔ s.MayStart j := by
  simp only [State.eligible, State.isRequested, State.held, State.MayStart, Bool.and_eq_true, decide_eq_true_eq,
    Bool.or_eq_true]
  simp

/-! ## Everything the two commands that move the transaction can do -/

/-- POLL: a response, and one of the moves. -/
theorem poll_inv {s t : State} (hi : s.Inv) (h : exec .poll s = .next t) :
    ∃ (r : Option Word) (p : PollResult), PollMove s p ∧ t = { p.state with response := r } := by
  have e : exec .poll s = .next { (pollPhases s).state with
      response := some (responseWord .ok ((pollPhases s).state.statusView (pollPhases s).ev (pollPhases s).timeout)) } := rfl
  rw [e] at h
  simp only [Host.Outcome.next.injEq] at h
  exact ⟨_, _, pollPhases_move hi, h.symm⟩

/-- BEGIN: an error that changes nothing, or a transfer started on an idle block. -/
theorem begin_inv {s t : State} {dev : Handle} {rs : Bool} {ns nr : Half} (hi : s.Inv)
    (h : exec (.beginTransfer dev rs ns nr) s = .next t) :
    (∃ r : Option Word, t = { s with response := r }) ∨
    (s.fsm = .idle ∧ dev < s.regCount ∧
      ∃ (r : Option Word) (d : Device) (f : FsmState) (shadow : BitVec 6) (c : PeriphCmd),
        t = { s with
          devs := s.devs.set dev.toNat
            { d with nsend := ns, nread := nr, genrs := rs, wcount := 0, rcount := 0, finished := false, result := .ok,
                     state := .inProgress }
          active := dev, busy := true, fsm := f, shadow := shadow, timer := s.armedTimer
          periphOut := s.periphOut ++ [c], response := r } ∧
        d.addr7 = (s.dev dev).addr7 ∧ d.wbase = (s.dev dev).wbase ∧ d.rbase = (s.dev dev).rbase ∧
        (f = .start ∧ shadow = 0b100000#6 ∧ c = ⟨.issueStart, 0⟩ ∨
          f = .writeAddress ∧ shadow = 0b000010#6 ∧ c.code = .transmit)) := by
  simp only [exec, execBegin, finish] at h
  split at h
  · simp only [Host.Outcome.next.injEq] at h; exact .inl ⟨_, h.symm⟩
  split at h
  · simp only [Host.Outcome.next.injEq] at h; exact .inl ⟨_, h.symm⟩
  rename_i h1 h2
  have hd : dev < s.regCount := by simpa [State.validHandle] using h1
  have hb : s.busy = false := by simpa using h2
  have hf := hi.idle_of_not_busy hb
  have hl := hi.slot hd
  simp only [Host.Outcome.next.injEq] at h
  set d' := (s.dev dev).initRequest ns nr rs with hd'
  have hdev : (s.setDev dev d').dev dev = d' := s.dev_setDev_same d' hl
  refine .inr ⟨hf, hd, ?_⟩
  cases hr : (s.dev dev).rspend
  · have hst := State.startTransfer_start (s := s.setDev dev d') (h := dev) (by rw [hdev]; exact hr) (hi.inactive hf)
      (hi.shadowIdle hf)
    rw [hdev] at hst
    rw [hst] at h
    refine ⟨t.response, s.dev dev, .start, 0b100000#6, ⟨.issueStart, 0⟩, ?_, rfl, rfl, rfl, .inl ⟨rfl, rfl, rfl⟩⟩
    subst h
    simp [State.respond, State.setDev, State.armedTimer, hd', Device.initRequest]
  · have hst := State.startTransfer_skip (s := s.setDev dev d') (h := dev) (by rw [hdev]; exact hr) (hi.inactive hf)
      (hi.shadowIdle hf)
    rw [hdev] at hst
    rw [hst] at h
    refine ⟨t.response, { s.dev dev with rspend := false }, .writeAddress, 0b000010#6, ⟨.transmit, d'.addrByte⟩, ?_, rfl,
      rfl, rfl, .inr ⟨rfl, rfl, rfl⟩⟩
    subst h
    simp [State.respond, State.setDev, State.armedTimer, hd', Device.initRequest]

/-! ## The timer stays in its bounds -/

/-- A timer just armed is active with a budget within RETRY_BUDGET (R6, R176). -/
theorem State.Inv.armedTimer_ok {s : State} (hi : s.Inv) :
    s.armedTimer.active = true ∧ s.armedTimer.retryBudget ≠ 0 ∧ s.armedTimer.retryBudget ≤ s.params.retryBudget := by
  refine ⟨rfl, ?_, BitVec.le_refl _⟩
  have := hi.params
  unfold Params.Legal at this
  simp only [State.armedTimer]
  intro h
  simp_all

/-- A tick that does not exhaust the budget keeps the timer in its bounds (R178). -/
theorem State.Inv.tickedTimer_ok {s : State} (hi : s.Inv) (hf : s.fsm ≠ .idle) (ht : s.TickSurvives) :
    s.timer.tick.timer.active = true ∧ s.timer.tick.timer.retryBudget ≠ 0 ∧
      s.timer.tick.timer.retryBudget ≤ s.params.retryBudget := by
  have ha := hi.activeTimer hf
  obtain ⟨-, h1, h2, h3⟩ := State.tick_survives ha ht
  have hl := hi.budgetLeft ha
  have hbb := hi.budgetBounded
  rw [h3]
  refine ⟨h1, ?_⟩
  split
  · exact ⟨hl, hbb⟩
  · rename_i hc
    have h4 : s.timer.retryBudget ≠ 1 := fun h => ht ⟨ha, BitVec.not_lt.1 hc, h⟩
    constructor
    · intro h; apply h4; bv_omega
    · bv_omega

end Sys2Proof.Machine
end

