-- ==== Sys2Proof/Tests/Slice0.lean ====
section
/-! SUPPORT. Tests of one step each, their expected values from the spec (the vectors V<n> of 95_test_vectors.md, the tables
of R109, R170, R186 and R212), the WellFormed smoke tests, and a witness for the hypotheses of every statement. -/

namespace Sys2Proof.Tests

open Sys2Proof Sys2Proof.Machine

/-! ## Well-formedness: an ill-formed term for each check, refused -/

theorem test_wf_reserved_too_low : (Instr.reserved 0xB).wf = false := by decide
theorem test_wf_reserved_lowest : (Instr.reserved 0xC).wf = true := by decide
theorem test_wf_register :
    ((Asm.register 0x80 0 0).wf || (Asm.register 0 0x10000 0).wf || (Asm.register 0 0 0x10000).wf) = false ∧
    (Asm.register 0x7F 0xFFFF 0xFFFF).wf = true := by decide
theorem test_wf_begin :
    ((Asm.beginTransfer 0x100 0 0 false).wf || (Asm.beginTransfer 0 0x10000 0 true).wf ||
      (Asm.beginTransfer 0 0 0x10000 true).wf) = false := by decide
theorem test_wf_queue :
    ((Asm.queue 0x100 0 0 false).wf || (Asm.queue 0 0x10000 0 true).wf || (Asm.queue 0 0 0x10000 true).wf) = false := by
  decide
theorem test_wf_one_operand :
    ((Asm.isFinished 0x100).wf || (Asm.getCounts 0x100).wf || (Asm.ackResult 0x100).wf || (Asm.writePeriod 0x10000).wf ||
      (Asm.probe 0x100).wf) = false := by decide
theorem test_wf_pseudo :
    ((Asm.write 0x100 0).wf || (Asm.write 0 0x10000).wf || (Asm.writeRs 0x100 0).wf || (Asm.writeRs 0 0x10000).wf ||
      (Asm.read 0x100 0).wf || (Asm.read 0 0x10000).wf || (Asm.qwrite 0x100 0).wf || (Asm.qwrite 0 0x10000).wf ||
      (Asm.qread 0x100 0).wf || (Asm.qread 0 0x10000).wf) = false := by decide

/-! ## Decoding: one word for each constructor, written from R82 and R84 or taken from R109 and the vectors -/

theorem test_decode_nop : decode 0x0FFFFFFFFFFFFFFF#64 = .nop := by decide
theorem test_decode_register : decode 0x1500000001000200#64 = .register 0x50 0x0100 0x0200 := by decide
theorem test_decode_register_reserved : decode 0x1800000000000000#64 = .register 0x00 0 0 := by decide
theorem test_decode_begin : decode 0x200EFFFF00010000#64 = .beginTransfer 0 false 1 0 := by decide
theorem test_decode_begin_rs : decode 0x2001000000010000#64 = .beginTransfer 0 true 1 0 := by decide
theorem test_decode_queue : decode 0x3010000000000001#64 = .queue 1 false 0 1 := by decide
theorem test_decode_poll : decode 0x4000000000000000#64 = .poll := by decide
theorem test_decode_isFinished : decode 0x5FF0000000000000#64 = .isFinished 0xFF := by decide
theorem test_decode_getCounts : decode 0x6FF0000000000000#64 = .getCounts 0xFF := by decide
theorem test_decode_isBusIdle : decode 0x7000000000000000#64 = .isBusIdle := by decide
theorem test_decode_ackResult : decode 0x8010000000000000#64 = .ackResult 1 := by decide
theorem test_decode_writePeriod : decode 0x900000000000FFFF#64 = .writePeriod 0xFFFF := by decide
theorem test_decode_readStatus : decode 0xA000000000000000#64 = .readStatus := by decide
theorem test_decode_readTimer : decode 0xB000000000000000#64 = .readTimer := by decide
theorem test_decode_reserved : decode 0xF123456789ABCDEF#64 = .reserved 0xF := by decide

/-- Bits spread over every field (R82): DEV 0x5A, RS, NSEND 0x1234, NREAD 0xABCD. -/
theorem test_encode_queue : encode (.queue 0x5A true 0x1234 0xABCD) = 0x35A100001234ABCD#64 := by decide
theorem test_decodeTableWord : decodeTableWord 64 0x9000000000000003 = some (.writePeriod 3) := by decide

/-- The worked encodings of R109, from their text. -/
theorem test_assemble_register :
    assembleLine "REGISTER 0x50, 0x0100, 0x0200 ; device 0".toList = some 0x1500000001000200#64 := by decide
theorem test_assemble_begin_rs : assembleLine "BEGIN 0, 1, 0, RS".toList = some 0x2001000000010000#64 := by decide
theorem test_assemble_write_period : assembleLine "WRITE_PERIOD 3".toList = some 0x9000000000000003#64 := by decide
/-- R108: WRITE_RS dev, n is BEGIN dev, n, 0, RS. -/
theorem test_assemble_pseudo : assembleLine "WRITE_RS 0, 1".toList = some 0x2001000000010000#64 := by decide
theorem test_assemble_refuses : assembleLine "REGISTER 0x80, 0, 0".toList = none := by decide

/-! ## Small states -/

/-- The device of most vectors: address 0x50, write buffer at 0x0100, read buffer at 0x0400. -/
def plain : Device := registeredDevice 0x50 0x0100 0x0400

/-- Devices in the slots of the file, the rest of it as reset leaves it, and the two bytes of V34 and V36 in memory. -/
def withDevices (ds : List Device) : State :=
  { State.reset with
    regCount := BitVec.ofNat 8 ds.length, devs := ds ++ List.replicate (8 - ds.length) Device.reset
    mem := [(0x0100, 0xA5), (0x0101, 0x5A)] }

/-- One device, nothing in flight. -/
def oneDevice : State := withDevices [plain]

/-- The timer `Arm()` leaves with `period` 8 and RETRY_BUDGET 5. -/
def armed : Timer :=
  { period := 8, count := 8, retryBudget := 5, start := true, active := true, expired := false, exhausted := false }

/-- Device 0 in flight, the transaction in state `f` with outstanding action `shadow`. -/
def inFlight (f : FsmState) (shadow : BitVec 6) (d : Device) : State :=
  { withDevices [d] with fsm := f, shadow := shadow, busy := true, timer := armed }

/-- A two-byte write, of which `n` bytes are acknowledged. -/
def writing (n : Half) : Device := { plain with nsend := 2, wcount := n, state := .inProgress }

/-- A two-byte read, of which `n` bytes have arrived. -/
def reading (n : Half) : Device := { plain with nread := 2, rcount := n, state := .inProgress }

/-- An address-only transaction. -/
def probing (rs : Bool) : Device := { plain with genrs := rs, state := .inProgress }

/-- A one-byte write that asked for a repeated start. -/
def writingRs : Device := { plain with nsend := 1, genrs := true, state := .inProgress }

/-- The state one command leaves. -/
def after (s : State) (w : Word) (x : PeriphInputs := PeriphInputs.stub 0) : State :=
  match commandStep w x [] s with
  | .next t => t
  | .fault _ => s
  | .refused _ => s

/-- One row of the vector tables: response, peripheral commands and buffer accesses of one command. -/
abbrev Row (s : State) (w : Word) (x : PeriphInputs) (rsp : Word) (out : List PeriphCmd) (ops : List MemOp) : Prop :=
  (after s w x).response = some rsp ∧ (after s w x).periphOut = out ∧ (after s w x).memOps = ops

/-- POLL under other inputs than the stub's. -/
def live (bits : BitVec 6) : PeriphInputs := { PeriphInputs.stub 0 with live := bits }
def nack : PeriphInputs := { PeriphInputs.stub 0 with ackstat := false }

/-! ## Commands: at most two tests each, from the vectors -/

/-- V2. -/
theorem test_nop : after State.reset 0x0FFFFFFFFFFFFFFF#64 = { State.reset with response := some 0 } := by decide
/-- V4. -/
theorem test_reserved :
    after State.reset 0xF123456789ABCDEF#64 = { State.reset with response := some 0x6000000000000000#64 } := by decide
/-- V7. -/
theorem test_register :
    Row oneDevice 0x17F00000FFFF0000#64 (PeriphInputs.stub 0) 0x0010000000000000#64 [] [] ∧
    (after oneDevice 0x17F00000FFFF0000#64).regCount = 2 ∧
    (after oneDevice 0x17F00000FFFF0000#64).devAt 1 = { Device.reset with addr7 := 0x7F, wbase := 0xFFFF } := by decide
/-- V10. -/
theorem test_register_full :
    Row (withDevices (List.replicate 8 plain)) 0x1200000000000000#64 (PeriphInputs.stub 0) 0x5000000000000000#64 [] [] := by
  decide
/-- V13. -/
theorem test_begin :
    Row oneDevice 0x2000000000010000#64 (PeriphInputs.stub 0) 0x0000000000000000#64 [⟨.issueStart, 0⟩] [] ∧
    (after oneDevice 0x2000000000010000#64).fsm = .start ∧ (after oneDevice 0x2000000000010000#64).shadow = 0b100000 ∧
    (after oneDevice 0x2000000000010000#64).timer = armed := by decide
/-- V17. -/
theorem test_begin_after_restart :
    Row (withDevices [{ registeredDevice 0x68 0x0300 0x0400 with rspend := true, wcount := 1 }]) 0x2000000000000002#64
      (PeriphInputs.stub 0) 0x0000000000000000#64 [⟨.transmit, 0xD1⟩] [] := by decide
/-- V24. -/
theorem test_queue :
    Row { withDevices [writing 0, plain] with busy := true, fsm := .start } 0x3010000000000001#64 (PeriphInputs.stub 0)
      0x0010000000000000#64 [] [] ∧
    ((after (withDevices [writing 0, plain]) 0x3010000000000001#64).devAt 1).state = .requested := by decide
/-- V23. -/
theorem test_queue_busy :
    Row (inFlight .start 0b100000 (writing 0)) 0x3000000000010000#64 (PeriphInputs.stub 0) 0x1000000000000000#64 [] [] := by
  decide
/-- V60. -/
theorem test_isFinished :
    Row (withDevices [{ plain with finished := true }]) 0x5000000000000000#64 (PeriphInputs.stub 0) 0x0001000000000000#64
      [] [] := by decide
/-- V71. -/
theorem test_isFinished_rspend :
    Row (withDevices [{ plain with finished := true, rspend := true }]) 0x5000000000000000#64 (PeriphInputs.stub 0)
      0x0001001000000000#64 [] [] := by decide
/-- V61. -/
theorem test_getCounts :
    Row (withDevices [{ plain with wcount := 1 }]) 0x6000000000000000#64 (PeriphInputs.stub 0) 0x0000000000010000#64 [] [] := by
  decide
/-- V72. -/
theorem test_getCounts_null :
    Row oneDevice 0x6FF0000000000000#64 (PeriphInputs.stub 0) 0x4000000000000000#64 [] [] := by decide
/-- V65. -/
theorem test_isBusIdle_busy :
    Row (inFlight .start 0b100000 (writing 0)) 0x7000000000000000#64 (PeriphInputs.stub 0) 0x0000000000000000#64 [] [] := by
  decide
/-- V66. -/
theorem test_isBusIdle_reset :
    Row State.reset 0x7000000000000000#64 (PeriphInputs.stub 0) 0x0000000000000001#64 [] [] := by decide
/-- V62. -/
theorem test_ackResult :
    Row (withDevices [{ plain with finished := true }]) 0x8000000000000000#64 (PeriphInputs.stub 0) 0x0000000000000000#64
      [] [] ∧
    (after (withDevices [{ plain with finished := true }]) 0x8000000000000000#64).devAt 0 = plain := by decide
/-- V63. -/
theorem test_ackResult_busy :
    Row (inFlight .start 0b100000 (writing 0)) 0x8000000000000000#64 (PeriphInputs.stub 0) 0x1000000000000000#64 [] [] := by
  decide
/-- V70. -/
theorem test_writePeriod :
    (after State.reset 0x900000000000FFFF#64).timer.period = 65535 ∧
    (after State.reset 0x900000000000FFFF#64).response = some 0 := by decide
/-- V67. -/
theorem test_readStatus_reset :
    Row State.reset 0xA000000000000000#64 (PeriphInputs.stub 0) 0x0000000000380000#64 [] [] := by decide
/-- V68. -/
theorem test_readStatus_busy :
    Row (inFlight .start 0b100000 (writing 0)) 0xA000000000000000#64 (PeriphInputs.stub 0) 0x0000001383380000#64 [] [] := by
  decide
/-- V69. -/
theorem test_readTimer : Row State.reset 0xB000000000000000#64 (PeriphInputs.stub 0) 0x0000000800000000#64 [] [] := by decide
/-- P1's end state: period 8, count 7, budget 5, no flag. -/
theorem test_readTimer_after_write :
    Row { oneDevice with timer := { armed with count := 7, start := false, active := false } } 0xB000000000000000#64
      (PeriphInputs.stub 0) 0x0000000800070500#64 [] [] := by decide

/-- POLL's scheduler and timer: V27 to V32, and V51, V54, in which nothing completes. -/
theorem test_poll_phases :
    Row (withDevices [plain, plain, { plain with nsend := 1, state := .requested }]) 0x4000000000000000#64
      (PeriphInputs.stub 0) 0x0020203383000000#64 [⟨.issueStart, 0⟩] [] ∧
    Row (inFlight .start 0b100000 (writing 0)) 0x4000000000000000#64 (live 0x20) 0x0000001383380000#64 [] [] ∧
    Row { inFlight .start 0b100000 (writing 0) with timer := { armed with count := 1 } } 0x4000000000000000#64 (live 0x20)
      0x0000001383A40000#64 [] [] ∧
    Row { inFlight .start 0b100000 (writing 0) with timer := { armed with count := 1 } } 0x4000000000000000#64
      (PeriphInputs.stub 0) 0x000000150B0C0000#64 [⟨.transmit, 0xA0⟩] [] ∧
    Row { inFlight .start 0b100000 (writing 0) with timer := { armed with count := 1, retryBudget := 1, expired := true } }
      0x4000000000000000#64 (PeriphInputs.stub 0) 0x0000001002EC0000#64 [] [] ∧
    Row { withDevices [{ plain with rspend := true }, { plain with nsend := 1, state := .requested }] with cursor := 1 }
      0x4000000000000000#64 (PeriphInputs.stub 0) 0x0000102000380000#64 [] [] ∧
    Row (inFlight .writeAddress 0b000010 (writing 0)) 0x4000000000000000#64 { live 0 with trf := true } 0x000000150B380000#64
      [] [] ∧
    Row (inFlight .readData 0b000001 (reading 0)) 0x4000000000000000#64 { live 0 with rda := false } 0x0000001D07380000#64
      [] [] := by decide

/-- POLL's transitions: V33 to V48, V50. -/
theorem test_poll_transitions :
    Row (inFlight .start 0b100000 (writing 0)) 0x4000000000000000#64 (PeriphInputs.stub 0) 0x000000150B080000#64
      [⟨.transmit, 0xA0⟩] [] ∧
    Row (inFlight .writeAddress 0b000010 (writing 0)) 0x4000000000000000#64 (PeriphInputs.stub 0) 0x000000170B080000#64
      [⟨.transmit, 0xA5⟩] [.read 0x0100 0xA5] ∧
    Row (inFlight .writeAddress 0b000010 (writing 0)) 0x4000000000000000#64 nack 0x0000001B23080000#64 [⟨.issueStop, 0⟩] [] ∧
    Row (inFlight .writeData 0b000010 (writing 0)) 0x4000000000000000#64 (PeriphInputs.stub 0) 0x000000170B080000#64
      [⟨.transmit, 0x5A⟩] [.read 0x0101 0x5A] ∧
    Row (inFlight .writeData 0b000010 (writing 1)) 0x4000000000000000#64 (PeriphInputs.stub 0) 0x0000001B23080000#64
      [⟨.issueStop, 0⟩] [] ∧
    Row (inFlight .writeData 0b000010 (writing 0)) 0x4000000000000000#64 nack 0x0000001703080000#64 [] [] ∧
    Row (inFlight .writeData 0b000010 writingRs) 0x4000000000000000#64 (PeriphInputs.stub 0) 0x0000001943080000#64
      [⟨.issueRestart, 0⟩] [] ∧
    Row (inFlight .restart 0b010000 writingRs) 0x4000000000000000#64 (PeriphInputs.stub 0) 0x0000001000080000#64 [] [] ∧
    Row (inFlight .stop 0b001000 (writing 2)) 0x4000000000000000#64 (PeriphInputs.stub 0) 0x0000001000080000#64 [] [] ∧
    Row (inFlight .writeAddress 0b000010 (reading 0)) 0x4000000000000000#64 (PeriphInputs.stub 0) 0x0000001D07080000#64
      [⟨.enableRx, 0⟩] [] ∧
    Row (inFlight .readData 0b000001 (reading 0)) 0x4000000000000000#64 (PeriphInputs.stub 0x3C) 0x0000001D13180000#64
      [⟨.readRx, 0⟩, ⟨.sendAck, 1⟩] [.write 0x0400 0x3C] ∧
    Row (inFlight .readData 0b000100 (reading 1)) 0x4000000000000000#64 (PeriphInputs.stub 0) 0x0000001D07080000#64
      [⟨.enableRx, 0⟩] [] ∧
    Row (inFlight .readData 0b000001 (reading 1)) 0x4000000000000000#64 (PeriphInputs.stub 0x7E) 0x0000001D13180000#64
      [⟨.readRx, 0⟩, ⟨.sendAck, 0⟩] [.write 0x0401 0x7E] ∧
    Row (inFlight .readData 0b000100 (reading 2)) 0x4000000000000000#64 (PeriphInputs.stub 0) 0x0000001B23080000#64
      [⟨.issueStop, 0⟩] [] ∧
    Row (inFlight .writeAddress 0b000010 (probing false)) 0x4000000000000000#64 (PeriphInputs.stub 0) 0x0000001B23080000#64
      [⟨.issueStop, 0⟩] [] ∧
    Row (inFlight .writeAddress 0b000010 (probing true)) 0x4000000000000000#64 (PeriphInputs.stub 0) 0x0000001943080000#64
      [⟨.issueRestart, 0⟩] [] := by decide

/-! ## Shared operations -/

/-- V73 and V74: a buffer address wraps at 2^16. -/
theorem test_buffer_address_wraps :
    Device.writeAddr { plain with wbase := 0xFFFF, wcount := 1 } = 0 ∧
    Device.readAddr { plain with rbase := 0xFFFF, rcount := 1 } = 0 := by decide
/-- The NextCursor table (R212). -/
theorem test_nextCursor :
    (withDevices [plain, plain, plain]).nextCursor 0 = 1 ∧
    (withDevices [plain, plain, { plain with state := .requested }]).nextCursor 0 = 2 ∧
    (withDevices [plain, { plain with state := .requested }, { plain with state := .requested }]).nextCursor 2 = 1 ∧
    (withDevices [plain, plain, { plain with state := .requested }]).nextCursor 2 = 2 ∧
    (withDevices [plain]).nextCursor 0 = 0 ∧ (withDevices [{ plain with state := .requested }]).nextCursor 0 = 0 ∧
    (withDevices [{ plain with state := .requested }, { plain with state := .requested }, plain, plain]).nextCursor 3 = 0 := by
  decide
/-- Ticks 1, 3, 14 and 15 of R186. -/
theorem test_tick :
    (Timer.tick { armed with period := 3, count := 3 }).timer.count = 2 ∧
    Timer.tick { armed with period := 3, count := 1 } =
      { timer := { armed with period := 3, count := 3, retryBudget := 4, expired := true }, timeout := true
        exhausted := false } ∧
    (Timer.tick { armed with period := 3, count := 2, retryBudget := 1, expired := true }).timer.count = 1 ∧
    Timer.tick { armed with period := 3, count := 1, retryBudget := 1, expired := true } =
      { timer := { period := 3, count := 0, retryBudget := 0, start := true, active := false, expired := true
                   exhausted := true }
        timeout := true, exhausted := true } := by decide
/-- The rows of R170. -/
theorem test_adapter :
    firingBit 0b100000 (live 0b100000) = none ∧ firingBit 0b100000 (live 0) = some 5 ∧
    firingBit 0b000010 { live 0 with trf := true } = none ∧ firingBit 0b000010 (live 0) = some 1 ∧
    firingBit 0b000001 { live 0 with rda := false } = none ∧ firingBit 0b000001 (live 0b000001) = none ∧
    firingBit 0b000001 (live 0) = some 0 ∧ firingBit 0 (live 0) = none ∧ firingBit 0b000100 (live 0b111011) = some 2 := by
  decide
/-- The canonical form: writing what an unlisted byte reads removes the entry. -/
theorem test_memory_canonical :
    Memory.writeByte [(1, 2), (3, 4)] 2 9 = [(1, 2), (2, 9), (3, 4)] ∧ Memory.writeByte [(1, 2), (3, 4)] 3 0 = [(1, 2)] ∧
    Memory.wf [(3, 4), (1, 2)] = false ∧ Memory.wf [(1, 0)] = false ∧ Memory.wf [(65536, 1)] = false := by decide
theorem test_reset_memory_wf : State.reset.mem.wf = true := by decide
/-- A word placed by the host interface is the next one run. -/
theorem test_withFetchWord : step (State.reset.withFetchWord 64 0x7000000000000000) =
    .next { State.reset with response := some 1 } := by rfl

/-! ## Witnesses: a state and operands that meet the hypotheses of each statement together -/

/-- The invariant of an idle state, by what can be computed. -/
theorem inv_of_idle {s : State}
    (h : s.fsm = .idle ∧ s.shadow = 0 ∧ s.busy = false ∧ s.timer.active = false ∧ s.params = Params.default ∧
      s.devs.length = 8 ∧ s.regCount.toNat ≤ 8 ∧ s.cursor < s.regCount ∧ s.timer.retryBudget ≤ 5 ∧ s.mem.wf = true ∧
      ∀ j < s.regCount.toNat, (s.devAt j).state ≠ .inProgress ∧
        ((s.devAt j).wcount ≤ (s.devAt j).nsend ∧ (s.devAt j).rcount ≤ (s.devAt j).nread) ∧
        ((s.devAt j).state = .requested → (s.devAt j).wcount = 0 ∧ (s.devAt j).rcount = 0)) : s.Inv := by
  obtain ⟨hf, hs, hb, ha, hp, hl, hr, hc, ht, hm, hd⟩ := h
  have hp' : s.params.retryBudget = 5 := by rw [hp]; rfl
  refine ⟨by rw [hp]; decide, by rw [hp, hl]; rfl, by rw [hp]; exact hr, .inl hc, by simp [hb], by simp [hf, hb],
    by simp [hf, ha], by simp [ha], by rw [hp']; exact ht, by rw [hf, hs]; rfl, fun j hj => ?_, fun j hj => (hd j hj).2.1,
    fun j hj => (hd j hj).2.2, by rw [hf]; trivial, hm⟩
  simp [hb, (hd j hj).1]

/-- The invariant of a state with device 0 alone registered and in flight. -/
theorem inv_of_busy {s : State}
    (h : s.fsm ≠ .idle ∧ s.busy = true ∧ s.timer.active = true ∧ s.timer.retryBudget ≠ 0 ∧ s.params = Params.default ∧
      s.devs.length = 8 ∧ s.regCount = 1 ∧ s.cursor = 0 ∧ s.active = 0 ∧ s.timer.retryBudget ≤ 5 ∧ s.mem.wf = true ∧
      (s.devAt 0).state = .inProgress ∧ (s.devAt 0).wcount ≤ (s.devAt 0).nsend ∧ (s.devAt 0).rcount ≤ (s.devAt 0).nread)
    (hs : shadowFits s.fsm s.shadow) (hg : progressFits s.fsm s.shadow (s.devAt 0)) : s.Inv := by
  obtain ⟨hf, hb, ha, hr, hp, hl, hn, hc, hac, ht, hm, hd, hw, hrc⟩ := h
  have hp' : s.params.retryBudget = 5 := by rw [hp]; rfl
  have h0 : ∀ j, j < s.regCount.toNat → j = 0 := by intro j hj; rw [hn] at hj; simpa using hj
  refine ⟨by rw [hp]; decide, by rw [hp, hl]; rfl, by rw [hp, hn]; decide, .inl (by rw [hc, hn]; decide),
    fun _ => by rw [hac, hn]; decide, by simp [hf, hb], by simp [hf, ha], fun _ => hr, by rw [hp']; exact ht, hs,
    fun j hj => ?_, fun j hj => ?_, fun j hj => ?_, by rw [State.dev, hac]; exact hg, hm⟩ <;> rw [h0 j hj]
  · simp [hb, hd, hac]
  · exact ⟨hw, hrc⟩
  · simp [hd]

/-- An armed timer does not run out in one tick. -/
theorem ticks {f : FsmState} {shadow : BitVec 6} {d : Device} : (inFlight f shadow d).TickSurvives :=
  fun h => absurd h.2.2 (show ¬ (5#8 = 1) by decide)

theorem oneDevice_inv : oneDevice.Inv := inv_of_idle (by decide)
theorem reset_inv : State.reset.Inv := by
  refine ⟨by decide, by decide, by decide, by decide, by decide, by decide, by decide, by decide, by decide, rfl, by decide,
    by decide, by decide, trivial, by decide⟩
theorem start_inv : (inFlight .start 0b100000 (writing 0)).Inv := inv_of_busy (by decide) rfl ⟨rfl, rfl⟩
theorem writeAddress_inv : (inFlight .writeAddress 0b000010 (writing 0)).Inv := inv_of_busy (by decide) rfl ⟨rfl, rfl⟩
theorem readAddress_inv : (inFlight .writeAddress 0b000010 (reading 0)).Inv := inv_of_busy (by decide) rfl ⟨rfl, rfl⟩
theorem probe_inv (rs : Bool) : (inFlight .writeAddress 0b000010 (probing rs)).Inv := by
  cases rs <;> exact inv_of_busy (by decide) rfl ⟨rfl, rfl⟩
theorem writeData_inv : (inFlight .writeData 0b000010 (writing 0)).Inv :=
  inv_of_busy (by decide) (.inl rfl) (by show _ < _; decide)
theorem lastWrite_inv : (inFlight .writeData 0b000010 (writing 1)).Inv :=
  inv_of_busy (by decide) (.inl rfl) (by show _ < _; decide)
theorem lastWriteRs_inv : (inFlight .writeData 0b000010 writingRs).Inv :=
  inv_of_busy (by decide) (.inl rfl) (by show _ < _; decide)
theorem restart_inv : (inFlight .restart 0b010000 writingRs).Inv := inv_of_busy (by decide) rfl trivial
theorem stop_inv : (inFlight .stop 0b001000 (writing 2)).Inv := inv_of_busy (by decide) rfl trivial
theorem readData_inv : (inFlight .readData 0b000001 (reading 0)).Inv :=
  inv_of_busy (by decide) (.inl rfl) ⟨by decide, by decide⟩
theorem readAcked_inv : (inFlight .readData 0b000100 (reading 1)).Inv :=
  inv_of_busy (by decide) (.inr rfl) ⟨by decide, by decide⟩
theorem readNacked_inv : (inFlight .readData 0b000100 (reading 2)).Inv :=
  inv_of_busy (by decide) (.inr rfl) ⟨by decide, by decide⟩

/-- `s` with these events to come. -/
def before (s : State) (es : List Event) : State := { s with events := es }

theorem witness_DecodeInvertsEncode : (Instr.reserved 0xC).wf = true ∧ (Instr.queue 0xFF true 0xFFFF 0xFFFF).wf = true := by
  decide
theorem witness_ReservedBitsAreIgnored :
    (before oneDevice [.command 0x200EFFFF00010000#64 (PeriphInputs.stub 0)]).events =
      .command 0x200EFFFF00010000#64 (PeriphInputs.stub 0) :: [] := rfl
theorem witness_StepRunsDecodedCommand :
    (before oneDevice [.command 0x4000000000000000#64 nack, .reset]).events = .command 0x4000000000000000#64 nack :: [.reset] :=
  rfl
theorem witness_WithoutEventNothingHappens : oneDevice.events = [] := rfl
theorem witness_ResetInputSetsEveryRegister :
    (before (inFlight .start 0b100000 (writing 0)) [.reset]).events = .reset :: [] := rfl
theorem witness_HostWriteSetsOneByte :
    (before oneDevice [.hostWrite 0x0101 0]).events = .hostWrite 0x0101 0 :: [] ∧
    (before oneDevice [.hostWrite 0x0101 0]).mem.wf = true := by decide
theorem witness_RegisterAppendsDeviceOrRefuses :
    (oneDevice.Inv ∧ oneDevice.regCount.toNat ≠ oneDevice.params.nDev) ∧
    (withDevices (List.replicate 8 plain)).Inv ∧
    (withDevices (List.replicate 8 plain)).regCount.toNat = (withDevices (List.replicate 8 plain)).params.nDev :=
  ⟨⟨oneDevice_inv, by decide⟩, inv_of_idle (by decide), by decide⟩
theorem witness_AckResultClearsResult :
    (0 : Handle) < oneDevice.regCount ∧ (oneDevice.dev 0).state ≠ .inProgress := by decide
theorem witness_QueueRecordsRequest : (0 : Handle) < oneDevice.regCount ∧ (oneDevice.dev 0).state = .idle := by decide
/-- The first handle past the registry, and the null handle. -/
theorem witness_UnregisteredHandleIsRefused : ¬ (1 : Handle) < oneDevice.regCount ∧ ¬ (0xFF : Handle) < oneDevice.regCount := by
  decide
theorem witness_BusyDeviceIsRefused :
    (0 : Handle) < (inFlight .start 0b100000 (writing 0)).regCount ∧ (inFlight .start 0b100000 (writing 0)).busy = true ∧
    ((inFlight .start 0b100000 (writing 0)).dev 0).state ≠ .idle ∧
    ((inFlight .start 0b100000 (writing 0)).dev 0).state = .inProgress := by decide
theorem witness_IsFinishedReportsResult : (0 : Handle) < oneDevice.regCount := by decide
theorem witness_GetCountsReportsCursors : (0 : Handle) < (inFlight .stop 0b001000 (writing 2)).regCount := by decide
theorem witness_BeginIssuesStart :
    oneDevice.Inv ∧ (0 : Handle) < oneDevice.regCount ∧ oneDevice.busy = false ∧ (oneDevice.dev 0).rspend = false :=
  ⟨oneDevice_inv, by decide, by decide, by decide⟩
theorem witness_BeginAfterRepeatedStartSendsAddress :
    (withDevices [{ plain with rspend := true }]).Inv ∧ (0 : Handle) < (withDevices [{ plain with rspend := true }]).regCount ∧
    (withDevices [{ plain with rspend := true }]).busy = false ∧
    ((withDevices [{ plain with rspend := true }]).dev 0).rspend = true :=
  ⟨inv_of_idle (by decide), by decide, by decide, by decide⟩

/-- Slot 1 requested, `cursor` at slot 0: the search passes slot 0 and takes slot 1. -/
def waiting (rs : Bool) : State := withDevices [plain, { plain with nsend := 1, state := .requested, rspend := rs }]

theorem witness_PollStartsFirstEligibleDevice (rs : Bool) :
    (waiting rs).Inv ∧ (waiting rs).fsm = .idle ∧ 1 < (waiting rs).regCount.toNat ∧
    (1 : Handle).toNat = ((waiting rs).cursor.toNat + 1) % (waiting rs).regCount.toNat ∧
    (waiting rs).MayStart (1 : Handle).toNat ∧
    (∀ k' < 1, ¬ (waiting rs).MayStart (((waiting rs).cursor.toNat + k') % (waiting rs).regCount.toNat)) ∧
    ((waiting rs).dev 1).rspend = rs := by
  cases rs <;> unfold State.MayStart <;> exact ⟨inv_of_idle (by decide), by decide, by decide, by decide, by decide, by decide, by decide⟩
/-- A device requested but held back by another's repeated start. -/
theorem witness_PollLeavesSettledState :
    (withDevices [{ plain with rspend := true }, { plain with nsend := 1, state := .requested }]).Settled := by
  unfold State.Settled State.MayStart; decide
/-- Held back by a live bit at 1, by TRF = 1 with LIVE[1] = 0 (V51), by RDA = 0 with LIVE[0] = 0 (V54), and nothing
outstanding. -/
def idlers : List State :=
  [{ inFlight .start 0b100000 (writing 0) with inputs := live 0b100000 },
   { inFlight .writeAddress 0b000010 (writing 0) with inputs := { live 0 with trf := true } },
   { inFlight .readData 0b000001 (reading 0) with inputs := { live 0 with rda := false } },
   inFlight .writeData 0 (writing 0)]

theorem witness_PollCountsDown : ∀ s ∈ idlers, s.Inv ∧ s.fsm ≠ .idle ∧ nothingCompletes s.shadow s.inputs ∧ 1 < s.timer.count := by
  simp only [idlers, List.forall_mem_cons]
  exact ⟨⟨inv_of_busy (by decide) rfl ⟨rfl, rfl⟩, by decide, (firingBit_none_iff _ _).1 (by decide), by decide⟩,
    ⟨inv_of_busy (by decide) rfl ⟨rfl, rfl⟩, by decide, (firingBit_none_iff _ _).1 (by decide), by decide⟩,
    ⟨inv_of_busy (by decide) (.inl rfl) ⟨rfl, fun _ => by decide⟩, by decide, (firingBit_none_iff _ _).1 (by decide), by decide⟩,
    ⟨inv_of_busy (by decide) (.inr rfl) (by show _ < _; decide), by decide, nothingCompletes_zero _, by decide⟩,
    fun _ h => nomatch h⟩
theorem witness_PollReportsTimeout :
    ∀ s₀ ∈ idlers, let s : State := { s₀ with timer := { armed with count := 1, retryBudget := 2 } }
      s.Inv ∧ s.fsm ≠ .idle ∧ nothingCompletes s.shadow s.inputs ∧ s.timer.count ≤ 1 ∧ s.timer.retryBudget ≠ 1 := by
  simp only [idlers, List.forall_mem_cons]
  exact ⟨⟨inv_of_busy (by decide) rfl ⟨rfl, rfl⟩, by decide, (firingBit_none_iff _ _).1 (by decide), by decide, by decide⟩,
    ⟨inv_of_busy (by decide) rfl ⟨rfl, rfl⟩, by decide, (firingBit_none_iff _ _).1 (by decide), by decide, by decide⟩,
    ⟨inv_of_busy (by decide) (.inl rfl) ⟨rfl, fun _ => by decide⟩, by decide, (firingBit_none_iff _ _).1 (by decide), by decide,
      by decide⟩,
    ⟨inv_of_busy (by decide) (.inr rfl) (by show _ < _; decide), by decide, nothingCompletes_zero _, by decide, by decide⟩,
    fun _ h => nomatch h⟩
theorem witness_PollAbortsOnExhaustion :
    let s : State := { inFlight .start 0b100000 (writing 0) with timer := { armed with count := 0, retryBudget := 1 } }
    s.Inv ∧ s.fsm ≠ .idle ∧ s.timer.count ≤ 1 ∧ s.timer.retryBudget = 1 :=
  ⟨inv_of_busy (by decide) rfl ⟨rfl, rfl⟩, by decide, by decide, by decide⟩
/-- The first clause at its last candidate, the device itself. -/
theorem witness_NextCursorFindsPendingWork_requested :
    let s := withDevices [{ plain with state := .requested }]
    s.regCount ≠ 0 ∧ 1 ≤ 1 ∧ 1 ≤ s.regCount.toNat ∧ (s.devAt (((0 : Handle).toNat + 1) % s.regCount.toNat)).state = .requested ∧
    ∀ k', 1 ≤ k' → k' < 1 → (s.devAt (((0 : Handle).toNat + k') % s.regCount.toNat)).state ≠ .requested :=
  ⟨by decide, by decide, by decide, by decide, fun k' h1 h2 => by omega⟩
theorem witness_NextCursorFindsPendingWork_none :
    oneDevice.regCount ≠ 0 ∧ ∀ j < oneDevice.regCount.toNat, (oneDevice.devAt j).state ≠ .requested := by decide
theorem witness_StartDoneSendsAddress :
    let s := inFlight .start 0b100000 (writing 0)
    s.Inv ∧ s.TickSurvives ∧ s.fsm = .start ∧ s.inputs.live.getLsbD 5 = false :=
  ⟨start_inv, ticks, by decide, by decide⟩
theorem witness_AddressAckedReadEnablesReceiver :
    let s := inFlight .writeAddress 0b000010 (reading 0)
    s.Inv ∧ s.TickSurvives ∧ s.fsm = .writeAddress ∧ s.inputs.live.getLsbD 1 = false ∧ s.inputs.trf = false ∧
    s.inputs.ackstat = true ∧ (s.dev s.active).nsend = 0 ∧ (s.dev s.active).nread ≠ 0 :=
  ⟨readAddress_inv, ticks, by decide, by decide, by decide, by decide, by decide, by decide⟩
theorem witness_AddressAckedWriteSendsFirstByte :
    let s := inFlight .writeAddress 0b000010 (writing 0)
    s.Inv ∧ s.TickSurvives ∧ s.fsm = .writeAddress ∧ s.inputs.live.getLsbD 1 = false ∧ s.inputs.trf = false ∧
    s.inputs.ackstat = true ∧ (s.dev s.active).nsend ≠ 0 :=
  ⟨writeAddress_inv, ticks, by decide, by decide, by decide, by decide, by decide⟩
theorem witness_AddressAckedProbeEnds (rs : Bool) :
    let s := inFlight .writeAddress 0b000010 (probing rs)
    s.Inv ∧ s.TickSurvives ∧ s.fsm = .writeAddress ∧ s.inputs.live.getLsbD 1 = false ∧ s.inputs.trf = false ∧
    s.inputs.ackstat = true ∧ (s.dev s.active).nsend = 0 ∧ (s.dev s.active).nread = 0 ∧ (s.dev s.active).genrs = rs := by
  cases rs <;>
    exact ⟨probe_inv _, ticks, by decide, by decide, by decide, by decide, by decide, by decide, by decide⟩
theorem witness_AddressNackRecordsAndStops :
    let s : State := { inFlight .writeAddress 0b000010 (writing 0) with inputs := nack }
    s.Inv ∧ s.TickSurvives ∧ s.fsm = .writeAddress ∧ s.inputs.live.getLsbD 1 = false ∧ s.inputs.trf = false ∧
    s.inputs.ackstat = false :=
  ⟨inv_of_busy (by decide) rfl ⟨rfl, rfl⟩, ticks (f := .writeAddress) (shadow := 0b000010) (d := writing 0), by decide, by decide, by decide, by decide⟩
theorem witness_DataAckedSendsNextByte :
    let s := inFlight .writeData 0b000010 (writing 0)
    s.Inv ∧ s.TickSurvives ∧ s.fsm = .writeData ∧ s.shadow = 0b000010#6 ∧ s.inputs.live.getLsbD 1 = false ∧
    s.inputs.trf = false ∧ s.inputs.ackstat = true ∧ (s.dev s.active).wcount + 1 < (s.dev s.active).nsend :=
  ⟨writeData_inv, ticks, by decide, by decide, by decide, by decide, by decide, by decide⟩
theorem witness_LastDataAckedEndsWrite_stop :
    let s := inFlight .writeData 0b000010 (writing 1)
    s.Inv ∧ s.TickSurvives ∧ s.fsm = .writeData ∧ s.shadow = 0b000010#6 ∧ s.inputs.live.getLsbD 1 = false ∧
    s.inputs.trf = false ∧ s.inputs.ackstat = true ∧ (s.dev s.active).wcount + 1 = (s.dev s.active).nsend ∧
    (s.dev s.active).genrs = false :=
  ⟨lastWrite_inv, ticks, by decide, by decide, by decide, by decide, by decide, by decide, by decide⟩
theorem witness_LastDataAckedEndsWrite_restart :
    let s := inFlight .writeData 0b000010 writingRs
    s.Inv ∧ s.TickSurvives ∧ s.fsm = .writeData ∧ s.shadow = 0b000010#6 ∧ s.inputs.live.getLsbD 1 = false ∧
    s.inputs.trf = false ∧ s.inputs.ackstat = true ∧ (s.dev s.active).wcount + 1 = (s.dev s.active).nsend ∧
    (s.dev s.active).genrs = true :=
  ⟨lastWriteRs_inv, ticks, by decide, by decide, by decide, by decide, by decide, by decide, by decide⟩
/-- Both clauses: a count of 2, and one of 1 with budget left. -/
theorem witness_DataNackOnlyClearsShadow (n : Half) (hn : n = 1 ∨ n = 2) :
    let s : State := { inFlight .writeData 0b000010 (writing 0) with inputs := nack, timer := { armed with count := n } }
    s.Inv ∧ s.fsm = .writeData ∧ s.shadow = 0b000010#6 ∧ s.inputs.live.getLsbD 1 = false ∧ s.inputs.trf = false ∧
    s.inputs.ackstat = false ∧ (n = 2 → 1 < s.timer.count) ∧ (n = 1 → s.timer.count ≤ 1 ∧ s.timer.retryBudget ≠ 1) := by
  rcases hn with rfl | rfl <;>
    exact ⟨inv_of_busy (by decide) (.inl rfl) (by show _ < _; decide), by decide, by decide, by decide, by decide, by decide,
      by decide, by decide⟩
theorem witness_RestartDoneEndsSegment :
    let s := inFlight .restart 0b010000 writingRs
    s.Inv ∧ s.TickSurvives ∧ s.fsm = .restart ∧ s.inputs.live.getLsbD 4 = false :=
  ⟨restart_inv, ticks, by decide, by decide⟩
theorem witness_StopDoneFinishesDevice :
    let s := inFlight .stop 0b001000 (writing 2)
    s.Inv ∧ s.TickSurvives ∧ s.fsm = .stop ∧ s.inputs.live.getLsbD 3 = false :=
  ⟨stop_inv, ticks, by decide, by decide⟩
theorem witness_ReceivedByteIsStoredAndAcked :
    let s := inFlight .readData 0b000001 (reading 0)
    s.Inv ∧ s.TickSurvives ∧ s.fsm = .readData ∧ s.shadow = 0b000001#6 ∧ s.inputs.live.getLsbD 0 = false ∧
    s.inputs.rda = true :=
  ⟨readData_inv, ticks, by decide, by decide, by decide, by decide⟩
theorem witness_AckDoneReceivesNextOrStops_next :
    let s := inFlight .readData 0b000100 (reading 1)
    s.Inv ∧ s.TickSurvives ∧ s.fsm = .readData ∧ s.shadow = 0b000100#6 ∧ s.inputs.live.getLsbD 2 = false ∧
    (s.dev s.active).rcount < (s.dev s.active).nread :=
  ⟨readAcked_inv, ticks, by decide, by decide, by decide, by decide⟩
theorem witness_AckDoneReceivesNextOrStops_stop :
    let s := inFlight .readData 0b000100 (reading 2)
    s.Inv ∧ s.TickSurvives ∧ s.fsm = .readData ∧ s.shadow = 0b000100#6 ∧ s.inputs.live.getLsbD 2 = false ∧
    (s.dev s.active).rcount = (s.dev s.active).nread :=
  ⟨readNacked_inv, ticks, by decide, by decide, by decide, by decide⟩
theorem witness_ErrorResponseChangesNothing :
    ∃ (t : State) (r : Word), exec (.reserved 0xC) oneDevice = .next t ∧ t.response = some r ∧ r.extractLsb' 60 4 ≠ 0 :=
  ⟨_, _, rfl, rfl, by decide⟩
/-- The step that emits two commands. -/
theorem witness_CommandsEmittedPerStep :
    ∃ t, exec .poll (inFlight .readData 0b000001 (reading 0)) = .next t ∧ t.periphOut.length = 2 := ⟨_, rfl, by decide⟩
/-- The step that writes a byte, and the one that reads one. -/
theorem witness_BufferAccessesPerStep :
    (inFlight .readData 0b000001 (reading 0)).Inv ∧ (∃ t, exec .poll (inFlight .readData 0b000001 (reading 0)) = .next t) ∧
    (inFlight .writeData 0b000010 (writing 0)).Inv ∧ ∃ t, exec .poll (inFlight .writeData 0b000010 (writing 0)) = .next t :=
  ⟨readData_inv, ⟨_, rfl⟩, writeData_inv, ⟨_, rfl⟩⟩
theorem witness_ConfigurationFrame :
    oneDevice.Inv ∧ (∃ t, exec (.beginTransfer 0 true 1 0) oneDevice = .next t) ∧ 0 < oneDevice.regCount.toNat :=
  ⟨oneDevice_inv, ⟨_, rfl⟩, by decide⟩
theorem witness_TransactionFrame :
    (∃ t, exec (.queue 0 true 1 0) oneDevice = .next t) ∧ Instr.queue 0 true 1 0 ≠ .poll ∧ (Instr.queue 0 true 1 0).op ≠ 0x2 :=
  ⟨⟨_, rfl⟩, by decide, by decide⟩
/-- BEGIN on device 0 and slot 1, which it does not touch. -/
theorem witness_OtherDevicesUntouched :
    (waiting false).Inv ∧ ∃ t, exec (.beginTransfer 0 true 1 0) (waiting false) = .next t ∧ 1 < (waiting false).regCount.toNat ∧
      ∀ h, touchedDevice (.beginTransfer 0 true 1 0) t = some h → 1 ≠ h.toNat :=
  ⟨inv_of_idle (by decide), _, rfl, by decide, fun h e => by have e0 : (0 : Handle) = h := Option.some.inj e; subst e0; decide⟩
theorem witness_OnlyPollReadsInputs : Instr.readStatus ≠ .poll := by decide
/-- Other inputs that agree on all a Start state's POLL reads. -/
theorem witness_PollReadsOnlyNamedInputs :
    let s := inFlight .start 0b100000 (writing 0)
    let x : PeriphInputs := { live := 0b011111, trf := true, rda := false, ackstat := false, rxdata := 0xFF }
    x ≠ s.inputs ∧ (s.fsm ≠ .idle → x.live &&& s.shadow = s.inputs.live &&& s.shadow) ∧
    (s.fsm ≠ .idle → s.shadow.getLsbD 1 = true → x.trf = s.inputs.trf) ∧
    (s.fsm ≠ .idle → s.shadow.getLsbD 0 = true → x.rda = s.inputs.rda) ∧
    (s.fsm = .writeAddress ∨ s.fsm = .writeData → x.ackstat = s.inputs.ackstat) ∧
    (s.fsm = .readData → x.rxdata = s.inputs.rxdata) := by decide
theorem witness_BusCommandStartsFullCountdown :
    (inFlight .start 0b100000 (writing 0)).Inv ∧
    ∃ t, exec .poll (inFlight .start 0b100000 (writing 0)) = .next t ∧
      t.periphOut = (inFlight .start 0b100000 (writing 0)).periphOut ++ [⟨.transmit, 0xA0⟩] ∧
      (⟨.transmit, 0xA0⟩ : PeriphCmd) ∈ [(⟨.transmit, 0xA0⟩ : PeriphCmd)] ∧ PeriphCode.transmit ≠ .readRx :=
  ⟨start_inv, _, rfl, by decide, by decide, by decide⟩
theorem witness_ResetMeetsInvariant : Params.default.Legal ∧ (⟨255, 1, 0⟩ : Params).Legal := by decide
theorem witness_StepKeepsInvariant :
    let s := before (inFlight .writeData 0b000010 (writing 0)) [pollEvent (PeriphInputs.stub 0)]
    s.Inv ∧ ∃ t, step s = .next t :=
  ⟨inv_of_busy (by decide) (.inl rfl) (by show _ < _; decide), _, rfl⟩
/-- Period 1, so that five POLLs exhaust the budget: `xs` with the live bits held, TRF held at 1, or a data byte not
acknowledged in the second POLL; the stub, which would complete the action, in the last. -/
def exhausting (f : FsmState) (shadow : BitVec 6) (xs : List PeriphInputs) : State :=
  { inFlight f shadow (writing 0) with
    timer := { armed with period := 1, count := 1 }, events := xs.map pollEvent ++ [.reset] }
theorem witness_UnfinishedActionAbortsOnTime_held :
    let xs := List.replicate 4 (live 0b100000) ++ [PeriphInputs.stub 0]
    let s := exhausting .start 0b100000 xs
    s.Inv ∧ s.fsm ≠ .idle ∧ s.timer = s.armedTimer ∧ xs.length = s.params.retryBudget.toNat * s.timer.spacing ∧
    s.Unconsumed xs.dropLast ∧ s.events = xs.map pollEvent ++ [.reset] := by
  refine ⟨inv_of_busy (by decide) rfl ⟨rfl, rfl⟩, by decide, by decide, by decide, .inl fun x hx => ?_, rfl⟩
  obtain rfl := List.eq_of_mem_replicate (n := 4) hx
  exact (firingBit_none_iff _ _).1 (by decide)
theorem witness_UnfinishedActionAbortsOnTime_trf :
    let xs := List.replicate 4 { live 0 with trf := true } ++ [PeriphInputs.stub 0]
    let s := exhausting .writeAddress 0b000010 xs
    s.Inv ∧ s.fsm ≠ .idle ∧ s.timer = s.armedTimer ∧ xs.length = s.params.retryBudget.toNat * s.timer.spacing ∧
    s.Unconsumed xs.dropLast ∧ s.events = xs.map pollEvent ++ [.reset] := by
  refine ⟨inv_of_busy (by decide) rfl ⟨rfl, rfl⟩, by decide, by decide, by decide, .inl fun x hx => ?_, rfl⟩
  obtain rfl := List.eq_of_mem_replicate (n := 4) hx
  exact (firingBit_none_iff _ _).1 (by decide)
theorem witness_UnfinishedActionAbortsOnTime_nack :
    let xs := [live 0b000010, nack, PeriphInputs.stub 0, PeriphInputs.stub 0, PeriphInputs.stub 0]
    let s := exhausting .writeData 0b000010 xs
    s.Inv ∧ s.fsm ≠ .idle ∧ s.timer = s.armedTimer ∧ xs.length = s.params.retryBudget.toNat * s.timer.spacing ∧
    s.Unconsumed xs.dropLast ∧ s.events = xs.map pollEvent ++ [.reset] := by
  refine ⟨inv_of_busy (by decide) (.inl rfl) (by show _ < _; decide), by decide, by decide, by decide,
    .inr ⟨rfl, [live 0b000010], nack, _, rfl, fun y hy => ?_, ?_, rfl⟩, rfl⟩
  · obtain rfl := List.mem_singleton.1 hy
    exact (firingBit_none_iff _ _).1 (by decide)
  · unfold actionCompletes; decide
theorem witness_WriteUnderStubTakesNPlusThreePolls :
    let bytes : List Byte := [0, 0, 0, 0, 0]
    let s := before oneDevice (.command (encode (.beginTransfer 0 true 2 0)) (PeriphInputs.stub 0) ::
      bytes.map (fun b => pollEvent (PeriphInputs.stub b)) ++ [])
    s.Inv ∧ s.busy = false ∧ (0 : Handle) < s.regCount ∧ (s.dev 0).rspend = false ∧ (2 : Half) ≠ 0 ∧
    2 ≤ s.params.retryBudget.toNat * s.timer.spacing ∧ bytes.length = (2 : Half).toNat + 3 :=
  ⟨inv_of_idle (by decide), by decide, by decide, by decide, by decide, by decide, by decide⟩
theorem witness_ReadUnderStubTakesTwoMPlusThreePolls :
    let bytes : List Byte := [0, 0, 0x3C, 0, 0]
    let s := before oneDevice (.command (encode (.beginTransfer 0 false 0 1)) (PeriphInputs.stub 0) ::
      bytes.map (fun b => pollEvent (PeriphInputs.stub b)) ++ [])
    s.Inv ∧ s.busy = false ∧ (0 : Handle) < s.regCount ∧ (s.dev 0).rspend = false ∧ (1 : Half) ≠ 0 ∧
    2 ≤ s.params.retryBudget.toNat * s.timer.spacing ∧ bytes.length = 2 * (1 : Half).toNat + 3 :=
  ⟨inv_of_idle (by decide), by decide, by decide, by decide, by decide, by decide, by decide⟩
/-- A one-byte write queued, period 1: 4 × 5 + 1 POLLs. In Idle a stale count above the period does not matter. -/
theorem witness_PollOnlyRunSettles :
    let xs := List.replicate 21 nack
    let s : State :=
      { withDevices [{ plain with nsend := 1, state := .requested }] with
        timer := { Timer.reset Params.default with period := 1, count := 8 }, events := xs.map pollEvent }
    s.Inv ∧ (s.busy = true → s.timer.count.toNat ≤ s.timer.spacing) ∧ s.settleBound ≤ xs.length ∧
    s.events = xs.map pollEvent :=
  ⟨inv_of_idle (by decide), by decide, by decide, rfl⟩
/-- In flight, with a countdown in progress no longer than the period: 4 × 5 × 8 POLLs. -/
theorem witness_PollOnlyRunSettles_busy :
    let xs := List.replicate 160 nack
    let s : State := { inFlight .start 0b100000 { writing 0 with nsend := 1 } with events := xs.map pollEvent }
    s.Inv ∧ (s.busy = true → s.timer.count.toNat ≤ s.timer.spacing) ∧ s.settleBound ≤ xs.length ∧
    s.events = xs.map pollEvent :=
  ⟨inv_of_busy (by decide) rfl ⟨rfl, rfl⟩, fun _ => by decide, by rw [List.length_replicate]; decide, rfl⟩

end Sys2Proof.Tests
end

section
/-! The step on a command, and what 00_scope.md section 4 says of it. -/

namespace Sys2Proof.Machine

/-- R16, R20: later proofs about a command's step start here and go on with the `State.openStep_*` lemmas. -/
theorem step_of_command {s : State} {w : Word} {x : PeriphInputs} {rest : List Event}
    (h : s.events = .command w x :: rest) : step s = exec (decode w) (s.openStep x rest) := by
  simp only [step, h, commandStep]

/-- Settles O6: `State.openStep` is the record update the statement writes out. -/
theorem stepRunsDecodedCommand : Obligations.StepRunsDecodedCommand := by
  intro s w x rest h
  rw [step_of_command h, State.openStep]

end Sys2Proof.Machine
end

section
/-! The state after reset: the values it holds, and that it meets the invariant. -/

namespace Sys2Proof.Machine

/-- Every slot reads as reset leaves it, the file's own slots and those past its end alike. -/
theorem State.devAt_resetWith (p : Params) (i : Nat) : (State.resetWith p).devAt i = Device.reset := by
  simp only [State.devAt, State.resetWith, List.getD_eq_getElem?_getD, List.getElem?_replicate]
  split <;> rfl

/-- R48 to R53: nothing is registered and nothing is in flight, so only the parameters have to be legal. -/
theorem State.resetWith_inv {p : Params} (hp : p.Legal) : (State.resetWith p).Inv where
  params := hp
  slots := List.length_replicate
  registered := Nat.zero_le _
  cursorRegistered := .inr ⟨rfl, rfl⟩
  activeRegistered := nofun
  busyIffNotIdle := by simp [State.resetWith]
  timerIffNotIdle := by simp [State.resetWith, Timer.reset]
  budgetLeft := nofun
  budgetBounded := Nat.zero_le _
  shadowOne := rfl
  oneInProgress := fun j hj => absurd hj (Nat.not_lt_zero j)
  countsBounded := fun j hj => absurd hj (Nat.not_lt_zero j)
  requestFresh := fun j hj => absurd hj (Nat.not_lt_zero j)
  progress := trivial
  memory := rfl

/-- Settles O55, by the fields of the reset state. -/
theorem resetMeetsInvariant : Obligations.ResetMeetsInvariant := fun _ hp => State.resetWith_inv hp

/-- Settles O9: the registers are those `State.resetWith` writes, and every descriptor is `Device.reset`. -/
theorem resetStateHoldsSpecValues : Obligations.ResetStateHoldsSpecValues :=
  ⟨rfl, rfl, rfl, rfl, rfl, rfl, rfl, rfl, State.devAt_resetWith Params.default, rfl, rfl, rfl, rfl⟩

end Sys2Proof.Machine
end

section
/-! Everything the commands that move no transaction can do, said once, and what that leaves of the whole machine. -/

namespace Sys2Proof.Machine

/-- What a command that moves no transaction may leave of `s`, and when. -/
inductive QuietMove (s : State) : Instr → State → Prop where
  /-- A command that only answers, or one refused (R251). -/
  | responds (i : Instr) (st : Status) (payload : BitVec 60) : QuietMove s i (s.respond st payload)
  /-- R193. -/
  | registered (addr7 : BitVec 7) (wbase rbase : Half) (st : Status) (payload : BitVec 60)
    (hn : s.regCount.toNat ≠ s.params.nDev) :
    QuietMove s (.register addr7 wbase rbase)
      (({ s.setDev s.regCount (registeredDevice addr7 wbase rbase) with regCount := s.regCount + 1 } : State).respond
        st payload)
  /-- R196. -/
  | queued (dev : Handle) (rs : Bool) (nsend nread : Half) (st : Status) (payload : BitVec 60) (hd : dev < s.regCount)
    (hidle : (s.dev dev).state = .idle) :
    QuietMove s (.queue dev rs nsend nread)
      ((s.setDev dev { (s.dev dev).initRequest nsend nread rs with state := .requested }).respond st payload)
  /-- R207. -/
  | acked (dev : Handle) (st : Status) (payload : BitVec 60) (hd : dev < s.regCount) :
    QuietMove s (.ackResult dev)
      ((s.setDev dev { s.dev dev with finished := false, result := .ok }).respond st payload)
  /-- R208. -/
  | periodWritten (period : Half) (st : Status) (payload : BitVec 60) :
    QuietMove s (.writePeriod period)
      (({ s with timer := { s.timer with period := period } } : State).respond st payload)

/-- A command ends in one way: it answers (R15). -/
theorem respond_eq_of_finish {s t : State} {st : Status} {payload : BitVec 60} (h : finish s st payload = .next t) :
    s.respond st payload = t :=
  Host.Outcome.next.inj h

theorem State.validHandle_iff (s : State) (h : Handle) : s.validHandle h = true ↔ h < s.regCount := decide_eq_true_iff

/-- A branch of a command that ends in a response alone. -/
theorem QuietMove.of_finish {s t : State} {st : Status} {payload : BitVec 60} (i : Instr)
    (h : finish s st payload = .next t) : QuietMove s i t :=
  respond_eq_of_finish h ▸ .responds i st payload

theorem execRegister_move {s t : State} {addr7 : BitVec 7} {wbase rbase : Half}
    (h : execRegister addr7 wbase rbase s = .next t) : QuietMove s (.register addr7 wbase rbase) t := by
  unfold execRegister at h
  split at h
  · exact .of_finish _ h
  · exact respond_eq_of_finish h ▸ .registered addr7 wbase rbase _ _ ‹_›

theorem execQueue_move {s t : State} {dev : Handle} {rs : Bool} {nsend nread : Half}
    (h : execQueue dev rs nsend nread s = .next t) : QuietMove s (.queue dev rs nsend nread) t := by
  unfold execQueue at h
  split at h
  · exact .of_finish _ h
  · next hv =>
    split at h
    · exact .of_finish _ h
    · next hidle =>
      exact respond_eq_of_finish h ▸ .queued dev rs nsend nread _ _ ((s.validHandle_iff dev).1 (by simpa using hv))
        (not_not.1 hidle)

theorem execAckResult_move {s t : State} {dev : Handle} (h : execAckResult dev s = .next t) :
    QuietMove s (.ackResult dev) t := by
  unfold execAckResult at h
  split at h
  · exact .of_finish _ h
  · next hv =>
    split at h
    · exact .of_finish _ h
    · exact respond_eq_of_finish h ▸ .acked dev _ _ ((s.validHandle_iff dev).1 (by simpa using hv))

theorem execIsFinished_move {s t : State} {dev : Handle} (h : execIsFinished dev s = .next t) :
    QuietMove s (.isFinished dev) t := by
  unfold execIsFinished at h
  split at h <;> exact .of_finish _ h

theorem execGetCounts_move {s t : State} {dev : Handle} (h : execGetCounts dev s = .next t) :
    QuietMove s (.getCounts dev) t := by
  unfold execGetCounts at h
  split at h <;> exact .of_finish _ h

/-- Everything a command can do: POLL and BEGIN are the only ones that are not quiet. -/
theorem exec_cases {i : Instr} {s t : State} (h : exec i s = .next t) :
    i = .poll ∨ (∃ dev rs nsend nread, i = .beginTransfer dev rs nsend nread) ∨ QuietMove s i t := by
  cases i with
  | poll => exact .inl rfl
  | beginTransfer dev rs nsend nread => exact .inr (.inl ⟨dev, rs, nsend, nread, rfl⟩)
  | register addr7 wbase rbase => exact .inr (.inr (execRegister_move h))
  | queue dev rs nsend nread => exact .inr (.inr (execQueue_move h))
  | ackResult dev => exact .inr (.inr (execAckResult_move h))
  | isFinished dev => exact .inr (.inr (execIsFinished_move h))
  | getCounts dev => exact .inr (.inr (execGetCounts_move h))
  | writePeriod period => exact .inr (.inr (respond_eq_of_finish h ▸ .periodWritten period _ _))
  | nop => exact .inr (.inr (.of_finish _ h))
  | isBusIdle => exact .inr (.inr (.of_finish _ h))
  | readStatus => exact .inr (.inr (.of_finish _ h))
  | readTimer => exact .inr (.inr (.of_finish _ h))
  | reserved op => exact .inr (.inr (.of_finish _ h))

/-! ## Who moves the transaction -/

/-- A quiet command leaves the transaction state and, but for `period`, the timer. -/
theorem QuietMove.transaction {i : Instr} {s t : State} (h : QuietMove s i t) :
    t.cursor = s.cursor ∧ t.fsm = s.fsm ∧ t.shadow = s.shadow ∧ t.active = s.active ∧ t.busy = s.busy ∧
      { t.timer with period := s.timer.period } = s.timer := by
  cases h <;> exact ⟨rfl, rfl, rfl, rfl, rfl, rfl⟩

@[simp] theorem State.startTransfer_cursor (s : State) (h : Handle) : (s.startTransfer h).cursor = s.cursor := by
  simp only [State.startTransfer]
  split <;> simp

/-- BEGIN leaves the scheduler's cursor, in every state (R194). -/
theorem execBegin_cursor {s t : State} {dev : Handle} {rs : Bool} {nsend nread : Half}
    (h : execBegin dev rs nsend nread s = .next t) : t.cursor = s.cursor := by
  unfold execBegin at h
  split at h
  · exact respond_eq_of_finish h ▸ rfl
  · split at h
    · exact respond_eq_of_finish h ▸ rfl
    · rw [← respond_eq_of_finish h, State.respond_cursor, State.startTransfer_cursor, State.setDev_cursor]

/-- Settles O50: POLL is set aside, BEGIN has to keep only the cursor, and the rest are quiet. -/
theorem transactionFrame : Obligations.TransactionFrame := by
  intro i s t h hpoll
  obtain rfl | ⟨dev, rs, nsend, nread, rfl⟩ | hq := exec_cases h
  · exact absurd rfl hpoll
  · exact ⟨execBegin_cursor h, fun hop => absurd rfl hop⟩
  · obtain ⟨hcursor, hrest⟩ := hq.transaction
    exact ⟨hcursor, fun _ => hrest⟩

end Sys2Proof.Machine
end

section
/-! Everything BEGIN and POLL can do in a state of the invariant, by what becomes of the transaction: nothing, one is in
flight, or one ends. The moves of `PollMove` and `begin_inv` are sorted into these three once. -/

namespace Sys2Proof.Machine

/-- Two descriptors of one registered device: REGISTER alone writes the address and the bases (R28). -/
def Device.SameConfig (d e : Device) : Prop := d.addr7 = e.addr7 ∧ d.wbase = e.wbase ∧ d.rbase = e.rbase

/-- What the invariant says of a transaction in flight, in the state `f` with shadow bits `shadow` and the active
device's descriptor `d` (R49 to R52). -/
structure InFlight (f : FsmState) (shadow : BitVec 6) (d : Device) : Prop where
  notIdle : f ≠ .idle
  action : shadowFits f shadow
  progress : progressFits f shadow d
  inProgress : d.state = .inProgress
  counts : d.wcount ≤ d.nsend ∧ d.rcount ≤ d.nread

/-- A running timer within its bounds (R178, R39). -/
def Timer.Runs (p : Params) (t : Timer) : Prop :=
  t.active = true ∧ t.retryBudget ≠ 0 ∧ t.retryBudget ≤ p.retryBudget

/-- What a command that may move the transaction leaves of `s`. -/
inductive TransactionMove (s : State) : State → Prop where
  /-- Nothing but a response. -/
  | responds {r : Option Word} : TransactionMove s { s with response := r }
  /-- The transaction of device `h`, alone in progress, is in flight. -/
  | inFlight {h c : Handle} {d : Device} {f : FsmState} {shadow : BitVec 6} {timer : Timer} {mem : Memory}
    {out : List PeriphCmd} {ops : List MemOp} {r : Option Word}
    (hreg : h < s.regCount) (hcursor : c < s.regCount) (hconfig : d.SameConfig (s.dev h))
    (hflight : InFlight f shadow d) (hruns : timer.Runs s.params) (hperiod : timer.period = s.timer.period)
    (hothers : ∀ j < s.regCount.toNat, j ≠ h.toNat → (s.devAt j).state ≠ .inProgress) (hmem : mem.wf = true) :
    TransactionMove s
      { s with
        cursor := c, active := h, busy := true, devs := s.devs.set h.toNat d, fsm := f, shadow := shadow
        timer := timer, mem := mem, periphOut := out, memOps := ops, response := r }
  /-- The transaction in flight ends, and its device goes idle (R123, R256). -/
  | ended {d : Device} {timer : Timer} {r : Option Word} (hf : s.fsm ≠ .idle) (hconfig : d.SameConfig s.activeDev)
    (hidle : d.state = .idle) (hcounts : d.wcount ≤ d.nsend ∧ d.rcount ≤ d.nread)
    (hstopped : timer.active = false) (hbudget : timer.retryBudget ≤ s.params.retryBudget)
    (hperiod : timer.period = s.timer.period) :
    TransactionMove s { s.ended timer d with response := r }

/-! ## What the invariant gives -/

/-- The active device is in progress while a transaction is in flight (R51). -/
theorem State.Inv.activeInProgress {s : State} (hi : s.Inv) (hf : s.fsm ≠ .idle) : s.activeDev.state = .inProgress :=
  (hi.oneInProgress s.active.toNat (hi.activeHandle hf)).2 ⟨hi.isBusy hf, rfl⟩

/-- No other device is (R51). -/
theorem State.Inv.othersNotInProgress {s : State} (hi : s.Inv) (j : Nat) (hj : j < s.regCount.toNat)
    (hne : j ≠ s.active.toNat) : (s.devAt j).state ≠ .inProgress :=
  fun hs => hne ((hi.oneInProgress j hj).1 hs).2

/-- In Idle none is (R48, R51). -/
theorem State.Inv.noneInProgress {s : State} (hi : s.Inv) (hf : s.fsm = .idle) (j : Nat) (hj : j < s.regCount.toNat) :
    (s.devAt j).state ≠ .inProgress := by
  intro hs
  have hbusy := ((hi.oneInProgress j hj).1 hs).1
  rw [hi.not_busy hf] at hbusy
  cases hbusy

theorem State.Inv.activeInFlight {s : State} (hi : s.Inv) (hf : s.fsm ≠ .idle) :
    InFlight s.fsm s.shadow s.activeDev where
  notIdle := hf
  action := hi.shadowOne
  progress := hi.progress
  inProgress := hi.activeInProgress hf
  counts := hi.countsBounded s.active.toNat (hi.activeHandle hf)

/-- The cursor names a registered device as soon as there is one (R26). -/
theorem State.Inv.cursor_lt {s : State} (hi : s.Inv) {h : Handle} (hh : h < s.regCount) : s.cursor < s.regCount := by
  obtain hc | ⟨h0, -⟩ := hi.cursorRegistered
  · exact hc
  · rw [h0] at hh; exact absurd hh (BitVec.not_lt_zero)

theorem Device.SameConfig.refl (d : Device) : d.SameConfig d := ⟨rfl, rfl, rfl⟩

/-! ## The moves, sorted -/

/-- A transfer started on an idle block (R127, R128). -/
theorem TransactionMove.started {s : State} {h c : Handle} {d : Device} {f : FsmState} {shadow : BitVec 6}
    {out : List PeriphCmd} {r : Option Word} (hi : s.Inv) (hf : s.fsm = .idle) (hreg : h < s.regCount)
    (hcursor : c < s.regCount) (hconfig : d.SameConfig (s.dev h)) (hstate : d.state = .inProgress)
    (hw : d.wcount = 0) (hr : d.rcount = 0)
    (hfirst : f = .start ∧ shadow = 0b100000#6 ∨ f = .writeAddress ∧ shadow = 0b000010#6) :
    TransactionMove s
      { s with
        cursor := c, active := h, busy := true, devs := s.devs.set h.toNat d, fsm := f, shadow := shadow
        timer := s.armedTimer, periphOut := out, response := r } := by
  have hcounts : d.wcount ≤ d.nsend ∧ d.rcount ≤ d.nread := by
    rw [hw, hr]
    exact ⟨Nat.zero_le _, Nat.zero_le _⟩
  have hflight : InFlight f shadow d := by
    obtain ⟨rfl, rfl⟩ | ⟨rfl, rfl⟩ := hfirst
    · exact ⟨nofun, rfl, ⟨hw, hr⟩, hstate, hcounts⟩
    · exact ⟨nofun, rfl, ⟨hw, hr⟩, hstate, hcounts⟩
  exact .inFlight hreg hcursor hconfig hflight hi.armedTimer_ok rfl
    (fun j hj _ => hi.noneInProgress hf j hj) hi.memory

/-- A step of the transaction in flight, which stays in flight; it may write the active device's descriptor. -/
theorem TransactionMove.carriedOn {s : State} {d : Device} {f : FsmState} {shadow : BitVec 6} {timer : Timer}
    {mem : Memory} {out : List PeriphCmd} {ops : List MemOp} {r : Option Word} (hi : s.Inv) (hf : s.fsm ≠ .idle)
    (hconfig : d.SameConfig s.activeDev) (hflight : InFlight f shadow d) (hruns : timer.Runs s.params)
    (hperiod : timer.period = s.timer.period) (hmem : mem.wf = true) :
    TransactionMove s
      { s with
        devs := s.devs.set s.active.toNat d, fsm := f, shadow := shadow, timer := timer, mem := mem, periphOut := out
        memOps := ops, response := r } := by
  have hreg := hi.activeHandle hf
  rw [hi.isBusy hf]
  exact .inFlight hreg (hi.cursor_lt hreg) hconfig hflight hruns hperiod hi.othersNotInProgress hmem

/-- A step of the transaction in flight that writes no descriptor. -/
theorem TransactionMove.keptDevices {s : State} {f : FsmState} {shadow : BitVec 6} {timer : Timer}
    {out : List PeriphCmd} {ops : List MemOp} {r : Option Word} (hi : s.Inv) (hf : s.fsm ≠ .idle)
    (hflight : InFlight f shadow s.activeDev) (hruns : timer.Runs s.params) (hperiod : timer.period = s.timer.period) :
    TransactionMove s
      { s with fsm := f, shadow := shadow, timer := timer, periphOut := out, memOps := ops, response := r } := by
  rw [← State.devs_set_self (hi.activeSlot hf)]
  exact .carriedOn hi hf (.refl _) hflight hruns hperiod hi.memory

/-- BEGIN in a state of the invariant. -/
theorem begin_move {s t : State} {dev : Handle} {rs : Bool} {nsend nread : Half} (hi : s.Inv)
    (h : exec (.beginTransfer dev rs nsend nread) s = .next t) : TransactionMove s t := by
  obtain ⟨r, rfl⟩ | ⟨hf, hreg, r, d, f, shadow, c, rfl, haddr, hwbase, hrbase, hfirst⟩ := begin_inv hi h
  · exact .responds
  · refine .started hi hf hreg (hi.cursor_lt hreg) ?_ rfl rfl rfl ?_
    · exact ⟨haddr, hwbase, hrbase⟩
    · exact hfirst.imp (fun ⟨hf, hs, _⟩ => ⟨hf, hs⟩) (fun ⟨hf, hs, _⟩ => ⟨hf, hs⟩)

/-- What the scheduler starts is registered, and its request has not begun (R199). -/
theorem State.Inv.scheduled_fresh {s : State} (hi : s.Inv) {j : Handle} (hs : s.scheduled = some j) :
    j < s.regCount ∧ (s.dev j).wcount = 0 ∧ (s.dev j).rcount = 0 := by
  obtain ⟨hreg, heligible⟩ := State.scheduled_spec hs
  exact ⟨hreg, hi.requestFresh j.toNat hreg ((s.eligible_iff _).1 heligible).1⟩

/-- A step of the transaction in flight after which the same device goes on with the bus action `shadow` of state
`f`, its descriptor as it was. -/
theorem TransactionMove.issues {s : State} {f : FsmState} {shadow : BitVec 6} {cmds : List PeriphCmd}
    {ops : List MemOp} {r : Option Word} (hi : s.Inv) (hf : s.fsm ≠ .idle) (hne : f ≠ .idle)
    (haction : shadowFits f shadow) (hprogress : progressFits f shadow s.activeDev) :
    TransactionMove s { s.moved f shadow cmds with memOps := ops, response := r } :=
  have hflight := hi.activeInFlight hf
  .keptDevices hi hf ⟨hne, haction, hprogress, hflight.inProgress, hflight.counts⟩ hi.armedTimer_ok rfl

/-- The same after an acknowledged data byte (R135 to R137). -/
theorem TransactionMove.countsSent {s : State} {f : FsmState} {shadow : BitVec 6} {cmds : List PeriphCmd}
    {ops : List MemOp} {r : Option Word} (hi : s.Inv) (hf : s.fsm = .writeData) (hne : f ≠ .idle)
    (haction : shadowFits f shadow)
    (hprogress : progressFits f shadow { s.activeDev with wcount := s.activeDev.wcount + 1 })
    (hle : s.activeDev.wcount + 1 ≤ s.activeDev.nsend) :
    TransactionMove s
      { s.moved f shadow cmds with
        devs := s.devs.set s.active.toNat { s.activeDev with wcount := s.activeDev.wcount + 1 }
        memOps := ops, response := r } :=
  have hf' : s.fsm ≠ .idle := by rw [hf]; nofun
  have hflight := hi.activeInFlight hf'
  .carriedOn hi hf' ⟨rfl, rfl, rfl⟩ ⟨hne, haction, hprogress, hflight.inProgress, hle, hflight.counts.2⟩
    hi.armedTimer_ok rfl hi.memory

/-- The end of the transaction on a completed action (R123): the timer ticks, then is disarmed. -/
theorem TransactionMove.completes {s : State} {d : Device} {r : Option Word} (hi : s.Inv) (hf : s.fsm ≠ .idle)
    (ht : s.TickSurvives) (hconfig : d.SameConfig s.activeDev) (hidle : d.state = .idle)
    (hcounts : d.wcount ≤ d.nsend ∧ d.rcount ≤ d.nread) :
    TransactionMove s { s.ended s.timer.tick.timer.disarm d with response := r } :=
  .ended hf hconfig hidle hcounts rfl (hi.tickedTimer_ok hf ht).2.2 (Timer.tick_period _)

theorem Device.masterRead_of {d : Device} (hn : d.nsend = 0) (hm : 0 < d.nread) : d.masterRead = true := by
  simp only [Device.masterRead, hn, hm, decide_true, Bool.and_self]

/-- One move of a POLL, with its response. -/
theorem PollMove.transactionMove {s : State} {p : PollResult} (hi : s.Inv) (h : PollMove s p) (r : Option Word) :
    TransactionMove s { p.state with response := r } := by
  cases h with
  | quiet hf hs => exact .responds
  | start j hf hs hr =>
    obtain ⟨hreg, hw, hrc⟩ := hi.scheduled_fresh hs
    exact .started hi hf hreg hreg ⟨rfl, rfl, rfl⟩ rfl hw hrc (.inl ⟨rfl, rfl⟩)
  | skip j hf hs hr =>
    obtain ⟨hreg, hw, hrc⟩ := hi.scheduled_fresh hs
    exact .started hi hf hreg hreg ⟨rfl, rfl, rfl⟩ rfl hw hrc (.inr ⟨rfl, rfl⟩)
  | abort hf hc hb =>
    exact .ended hf ⟨rfl, rfl, rfl⟩ rfl (hi.activeInFlight hf).counts rfl (Nat.zero_le _) rfl
  | waits hf ht hb =>
    exact .keptDevices hi hf (hi.activeInFlight hf) (hi.tickedTimer_ok hf ht) (Timer.tick_period _)
  | startDone hf ht => exact .issues hi (hf ▸ nofun) nofun rfl (hi.startCounts hf)
  | addressRead hf ht hk hn hm =>
    refine .issues hi (hf ▸ nofun) nofun (.inl rfl) ⟨Device.masterRead_of hn hm, fun _ => ?_⟩
    rw [(hi.addressCounts hf).2]
    exact hm
  | addressWrite hf ht hk hn =>
    refine .issues hi (hf ▸ nofun) nofun (.inl rfl) ?_
    show s.activeDev.wcount < s.activeDev.nsend
    rw [(hi.addressCounts hf).1]
    exact hn
  | addressRestart hf ht hk hn hm hg => exact .issues hi (hf ▸ nofun) nofun rfl trivial
  | addressStop hf ht hk hn hm hg => exact .issues hi (hf ▸ nofun) nofun rfl trivial
  | addressNack hf ht hk =>
    have hf' : s.fsm ≠ .idle := hf ▸ nofun
    have hflight := hi.activeInFlight hf'
    exact .carriedOn hi hf' ⟨rfl, rfl, rfl⟩ ⟨nofun, rfl, trivial, hflight.inProgress, hflight.counts⟩
      hi.armedTimer_ok rfl hi.memory
  | dataNext hf ht hk hn => exact .countsSent hi hf nofun (.inl rfl) hn (BitVec.le_of_lt hn)
  | dataRestart hf ht hk hn hg => exact .countsSent hi hf nofun rfl trivial (BitVec.le_of_eq hn)
  | dataStop hf ht hk hn hg => exact .countsSent hi hf nofun rfl trivial (BitVec.le_of_eq hn)
  | dataNack hf ht hk =>
    have hf' : s.fsm ≠ .idle := hf ▸ nofun
    have hflight := hi.activeInFlight hf'
    have hflight' : InFlight s.fsm 0 s.activeDev := by
      rw [hf] at hflight ⊢
      exact ⟨nofun, .inr rfl, hflight.progress, hflight.inProgress, hflight.counts⟩
    exact .keptDevices hi hf' hflight' (hi.tickedTimer_ok hf' ht) (Timer.tick_period _)
  | restartDone hf ht =>
    have hf' : s.fsm ≠ .idle := hf ▸ nofun
    exact .completes hi hf' ht ⟨rfl, rfl, rfl⟩ rfl (hi.activeInFlight hf').counts
  | stopDone hf ht =>
    have hf' : s.fsm ≠ .idle := hf ▸ nofun
    exact .completes hi hf' ht ⟨rfl, rfl, rfl⟩ rfl (hi.activeInFlight hf').counts
  | received hf ht hs =>
    have hf' : s.fsm ≠ .idle := hf ▸ nofun
    have hflight := hi.activeInFlight hf'
    have hle : s.activeDev.rcount + 1 ≤ s.activeDev.nread := by
      have hlt : s.activeDev.rcount < s.activeDev.nread := hi.moreToRead hf hs
      bv_omega
    exact .carriedOn hi hf' ⟨rfl, rfl, rfl⟩
      ⟨nofun, .inr rfl, ⟨hi.readsOnly hf, nofun⟩, hflight.inProgress, hflight.counts.1, hle⟩
      hi.armedTimer_ok rfl (Memory.wf_writeByte _ _ hi.memory)
  | readNext hf ht hs hn =>
    exact .issues hi (hf ▸ nofun) nofun (.inl rfl) ⟨hi.readsOnly hf, fun _ => hn⟩
  | readStop hf ht hs hn => exact .issues hi (hf ▸ nofun) nofun rfl trivial

/-- POLL in a state of the invariant. -/
theorem poll_move {s t : State} (hi : s.Inv) (h : exec .poll s = .next t) : TransactionMove s t := by
  obtain ⟨r, p, hmove, rfl⟩ := poll_inv hi h
  exact hmove.transactionMove hi r

end Sys2Proof.Machine
end

section
/-! Every event keeps the invariant: one lemma for each way a step can change the state. -/

namespace Sys2Proof.Machine

/-! ## The descriptor file -/

/-- What holds of every other slot, and of the descriptor written, holds of every slot after the write. -/
theorem forall_slot_set {l : List Device} {h : Handle} {d : Device} {n : Nat} {P : Nat → Device → Prop}
    (hd : P h.toNat d) (hl : ∀ j < n, j ≠ h.toNat → P j (l.getD j Device.reset)) (hlen : n ≤ l.length) :
    ∀ j < n, P j ((l.set h.toNat d).getD j Device.reset) := by
  intro j hj
  by_cases hjh : j = h.toNat
  · subst hjh
    rw [getD_set_eq d Device.reset (by omega)]
    exact hd
  · rw [getD_set_ne d Device.reset hjh]
    exact hl j hj hjh

/-- What the invariant says of the descriptor `d` in slot `j` (R51, R52; a queued request has not begun). -/
structure SlotFits (busy : Bool) (active : Handle) (j : Nat) (d : Device) : Prop where
  inProgress : d.state = .inProgress ↔ busy = true ∧ j = active.toNat
  counts : d.wcount ≤ d.nsend ∧ d.rcount ≤ d.nread
  fresh : d.state = .requested → d.wcount = 0 ∧ d.rcount = 0

theorem State.Inv.slotFits {s : State} (hi : s.Inv) (j : Nat) (hj : j < s.regCount.toNat) :
    SlotFits s.busy s.active j (s.devAt j) :=
  ⟨hi.oneInProgress j hj, hi.countsBounded j hj, hi.requestFresh j hj⟩

theorem State.Inv.regCount_le_length {s : State} (hi : s.Inv) : s.regCount.toNat ≤ s.devs.length :=
  hi.slots ▸ hi.registered

/-! ## Outside the block -/

/-- The invariant speaks of no port: a response keeps it. -/
theorem State.Inv.response {s : State} (hi : s.Inv) (r : Option Word) : ({ s with response := r } : State).Inv :=
  { hi with }

theorem State.Inv.openStep {s : State} (hi : s.Inv) (x : PeriphInputs) (rest : List Event) : (s.openStep x rest).Inv :=
  { hi with }

theorem State.Inv.hostWrite {s : State} (hi : s.Inv) (a : Half) (v : Byte) (rest : List Event) :
    (s.hostWrite a v rest).Inv :=
  { hi with memory := Memory.wf_writeByte a v hi.memory }

theorem State.Inv.blockReset {s : State} (hi : s.Inv) (rest : List Event) : (s.blockReset rest).Inv :=
  { State.resetWith_inv hi.params with memory := hi.memory }

/-! ## The quiet commands -/

/-- A write of a registered descriptor that leaves the device in or out of the transaction as it was. -/
theorem State.Inv.setDev {s : State} {h : Handle} {d : Device} (hi : s.Inv) (hreg : h < s.regCount)
    (hfits : SlotFits s.busy s.active h.toNat d) (hprogress : s.active = h → progressFits s.fsm s.shadow d) :
    (s.setDev h d).Inv :=
  have hslots := forall_slot_set hfits (fun j hj _ => hi.slotFits j hj) hi.regCount_le_length
  { hi with
    slots := List.length_set.trans hi.slots
    oneInProgress := fun j hj => (hslots j hj).inProgress
    countsBounded := fun j hj => (hslots j hj).counts
    requestFresh := fun j hj => (hslots j hj).fresh
    progress := by
      by_cases ha : s.active = h
      · subst ha
        rw [State.setDev_active, State.dev_setDev_same s d (hi.slot hreg)]
        exact hprogress rfl
      · have hne : s.active.toNat ≠ h.toNat := fun e => ha (BitVec.eq_of_toNat_eq e)
        show progressFits s.fsm s.shadow ((s.setDev h d).devAt s.active.toNat)
        rw [State.devAt_setDev_other s d hne]
        exact hi.progress }

/-- R207: the result and `finished` play no part in the invariant. -/
theorem State.Inv.ackResult {s : State} (hi : s.Inv) {dev : Handle} (hreg : dev < s.regCount) :
    (s.setDev dev { s.dev dev with finished := false, result := .ok }).Inv := by
  have hfits := hi.slotFits dev.toNat hreg
  refine hi.setDev hreg ⟨hfits.inProgress, hfits.counts, hfits.fresh⟩ ?_
  rintro rfl
  have hprogress := hi.progress
  cases hf : s.fsm <;> rw [hf] at hprogress <;> exact hprogress

/-- R196: the device queued was idle, so it is not the one in flight. -/
theorem State.Inv.queue {s : State} (hi : s.Inv) {dev : Handle} (hreg : dev < s.regCount)
    (hidle : (s.dev dev).state = .idle) (nsend nread : Half) (rs : Bool) :
    (s.setDev dev { (s.dev dev).initRequest nsend nread rs with state := .requested }).Inv := by
  have hnot : ¬ (s.busy = true ∧ dev.toNat = s.active.toNat) := by
    rw [← (hi.slotFits dev.toNat hreg).inProgress, ← State.dev, hidle]
    nofun
  refine hi.setDev hreg ⟨iff_of_false nofun hnot, ⟨Nat.zero_le _, Nat.zero_le _⟩, fun _ => ⟨rfl, rfl⟩⟩ ?_
  rintro rfl
  have hf : s.fsm = .idle := by
    by_contra hf
    exact hnot ⟨hi.isBusy hf, rfl⟩
  rw [hf]
  trivial

/-- The registry's size does not wrap while the file has room (R6, R27). -/
theorem State.Inv.regCount_succ {s : State} (hi : s.Inv) (hn : s.regCount.toNat ≠ s.params.nDev) :
    (s.regCount + 1).toNat = s.regCount.toNat + 1 ∧ s.regCount.toNat < s.devs.length := by
  have hlt : s.regCount.toNat < s.params.nDev := lt_of_le_of_ne hi.registered hn
  have hcap : s.params.nDev ≤ 255 := hi.params.2.1
  refine ⟨?_, hi.slots ▸ hlt⟩
  rw [BitVec.toNat_add]
  exact Nat.mod_eq_of_lt (by show s.regCount.toNat + 1 < 256; omega)

/-- R193: the new slot is idle, and no old one moves. -/
theorem State.Inv.register {s : State} (hi : s.Inv) (addr7 : BitVec 7) (wbase rbase : Half)
    (hn : s.regCount.toNat ≠ s.params.nDev) :
    ({ s.setDev s.regCount (registeredDevice addr7 wbase rbase) with regCount := s.regCount + 1 } : State).Inv := by
  obtain ⟨hsucc, hroom⟩ := hi.regCount_succ hn
  have hstill : ∀ {h : Handle}, h < s.regCount → h < s.regCount + 1 := by
    intro h hh
    show h.toNat < (s.regCount + 1).toNat
    have hh' : h.toNat < s.regCount.toNat := hh
    omega
  have hnew : SlotFits s.busy s.active s.regCount.toNat (registeredDevice addr7 wbase rbase) := by
    refine ⟨iff_of_false nofun ?_, ⟨Nat.zero_le _, Nat.zero_le _⟩, nofun⟩
    rintro ⟨hb, he⟩
    have hactive : s.active.toNat < s.regCount.toNat := hi.activeRegistered hb
    omega
  have hslots := forall_slot_set (n := (s.regCount + 1).toNat) hnew
    (fun j hj hne => hi.slotFits j (by omega)) (by omega)
  exact
    { hi with
      slots := List.length_set.trans hi.slots
      registered := by
        show (s.regCount + 1).toNat ≤ s.params.nDev
        rw [hsucc, ← hi.slots]
        exact hroom
      cursorRegistered := by
        left
        obtain hc | ⟨h0, hc⟩ := hi.cursorRegistered
        · exact hstill hc
        · show s.cursor < s.regCount + 1
          rw [h0, hc]
          decide
      activeRegistered := fun hb => hstill (hi.activeRegistered hb)
      oneInProgress := fun j hj => (hslots j hj).inProgress
      countsBounded := fun j hj => (hslots j hj).counts
      requestFresh := fun j hj => (hslots j hj).fresh
      progress := by
        show progressFits s.fsm s.shadow
          ((s.setDev s.regCount (registeredDevice addr7 wbase rbase)).devAt s.active.toNat)
        by_cases hf : s.fsm = .idle
        · rw [hf]
          trivial
        · have hactive : s.active.toNat < s.regCount.toNat := hi.activeHandle hf
          rw [State.devAt_setDev_other s _ (Nat.ne_of_lt hactive)]
          exact hi.progress }

theorem QuietMove.inv {i : Instr} {s t : State} (hi : s.Inv) (h : QuietMove s i t) : t.Inv := by
  cases h with
  | responds i st payload => exact hi.response _
  | registered addr7 wbase rbase st payload hn => exact (hi.register addr7 wbase rbase hn).response _
  | queued dev rs nsend nread st payload hd hidle => exact (hi.queue hd hidle nsend nread rs).response _
  | acked dev st payload hd => exact (hi.ackResult hd).response _
  | periodWritten period st payload => exact { hi with }

/-! ## BEGIN and POLL -/

/-- One device in flight, every other out of progress: the state `TransactionMove.inFlight` leaves. -/
theorem State.Inv.inFlight {s : State} {h c : Handle} {d : Device} {f : FsmState} {shadow : BitVec 6} {timer : Timer}
    {mem : Memory} {out : List PeriphCmd} {ops : List MemOp} {r : Option Word} (hi : s.Inv) (hreg : h < s.regCount)
    (hcursor : c < s.regCount) (hflight : InFlight f shadow d) (hruns : timer.Runs s.params)
    (hothers : ∀ j < s.regCount.toNat, j ≠ h.toNat → (s.devAt j).state ≠ .inProgress) (hmem : mem.wf = true) :
    ({ s with
      cursor := c, active := h, busy := true, devs := s.devs.set h.toNat d, fsm := f, shadow := shadow
      timer := timer, mem := mem, periphOut := out, memOps := ops, response := r } : State).Inv := by
  obtain ⟨hactive, hleft, hbounded⟩ := hruns
  have hrequested : d.state ≠ .requested := by rw [hflight.inProgress]; nofun
  have hslots := forall_slot_set (P := SlotFits true h)
    ⟨iff_of_true hflight.inProgress ⟨rfl, rfl⟩, hflight.counts, (absurd · hrequested)⟩
    (fun j hj hne => { hi.slotFits j hj with inProgress := iff_of_false (hothers j hj hne) fun he => hne he.2 })
    hi.regCount_le_length
  exact
    { hi with
      slots := List.length_set.trans hi.slots
      cursorRegistered := .inl hcursor
      activeRegistered := fun _ => hreg
      busyIffNotIdle := iff_of_true rfl hflight.notIdle
      timerIffNotIdle := iff_of_true hactive hflight.notIdle
      budgetLeft := fun _ => hleft
      budgetBounded := hbounded
      shadowOne := hflight.action
      oneInProgress := fun j hj => (hslots j hj).inProgress
      countsBounded := fun j hj => (hslots j hj).counts
      requestFresh := fun j hj => (hslots j hj).fresh
      progress := by
        show progressFits f shadow ((s.setDev h d).dev h)
        rw [State.dev_setDev_same s d (hi.slot hreg)]
        exact hflight.progress
      memory := hmem }

/-- Nothing in flight any more, the cursor at a registered device (R123, R256). -/
theorem State.Inv.ended {s : State} {d : Device} {timer : Timer} (hi : s.Inv) (hf : s.fsm ≠ .idle)
    (hidle : d.state = .idle) (hcounts : d.wcount ≤ d.nsend ∧ d.rcount ≤ d.nread)
    (hstopped : timer.active = false) (hbudget : timer.retryBudget ≤ s.params.retryBudget) : (s.ended timer d).Inv :=
  have hreg : s.active.toNat < s.regCount.toNat := hi.activeHandle hf
  have hinactive : ¬ timer.active = true := by simp [hstopped]
  have hfits : SlotFits false s.active s.active.toNat d :=
    ⟨iff_of_false (by rw [hidle]; nofun) nofun, hcounts, fun hs => by rw [hidle] at hs; cases hs⟩
  have hslots := forall_slot_set hfits
    (fun j hj hne => { hi.slotFits j hj with inProgress := iff_of_false (hi.othersNotInProgress j hj hne) nofun })
    hi.regCount_le_length
  { hi with
    slots := List.length_set.trans hi.slots
    cursorRegistered := .inl (State.nextCursor_lt s.active (Nat.zero_lt_of_lt hreg))
    activeRegistered := nofun
    busyIffNotIdle := iff_of_false nofun (not_not.2 rfl)
    timerIffNotIdle := iff_of_false hinactive (not_not.2 rfl)
    budgetLeft := fun ha => absurd ha hinactive
    budgetBounded := hbudget
    shadowOne := rfl
    oneInProgress := fun j hj => (hslots j hj).inProgress
    countsBounded := fun j hj => (hslots j hj).counts
    requestFresh := fun j hj => (hslots j hj).fresh
    progress := trivial }

theorem TransactionMove.inv {s t : State} (hi : s.Inv) (h : TransactionMove s t) : t.Inv := by
  cases h with
  | responds => exact hi.response _
  | inFlight hreg hcursor hconfig hflight hruns hperiod hothers hmem =>
    exact hi.inFlight hreg hcursor hflight hruns hothers hmem
  | ended hf hconfig hidle hcounts hstopped hbudget hperiod =>
    exact (hi.ended hf hidle hcounts hstopped hbudget).response _

/-! ## A command and a step -/

/-- Everything a command can do in a state of the invariant. -/
theorem exec_moves {i : Instr} {s t : State} (hi : s.Inv) (h : exec i s = .next t) :
    TransactionMove s t ∨ QuietMove s i t := by
  obtain rfl | ⟨dev, rs, nsend, nread, rfl⟩ | hquiet := exec_cases h
  · exact .inl (poll_move hi h)
  · exact .inl (begin_move hi h)
  · exact .inr hquiet

theorem exec_keeps_inv {i : Instr} {s t : State} (hi : s.Inv) (h : exec i s = .next t) : t.Inv :=
  (exec_moves hi h).elim (·.inv hi) (·.inv hi)

/-- Settles O56, by the event the step takes. -/
theorem stepKeepsInvariant : Obligations.StepKeepsInvariant := by
  intro s t hi h
  unfold step at h
  split at h
  next => exact Host.Outcome.next.inj h ▸ hi
  next w x rest _ => exact exec_keeps_inv (hi.openStep x rest) h
  next a v rest _ => exact Host.Outcome.next.inj h ▸ hi.hostWrite a v rest
  next rest _ => exact Host.Outcome.next.inj h ▸ hi.blockReset rest

end Sys2Proof.Machine
end

section
/-! What every command leaves of the configuration: the registry's size, addresses and bases, and the period. -/

namespace Sys2Proof.Machine

/-- What REGISTER and WRITE_PERIOD configure, and what no command writes at all, left as it was. -/
structure KeepsConfig (s t : State) : Prop where
  params : t.params = s.params
  events : t.events = s.events
  inputs : t.inputs = s.inputs
  devices : ∀ j < s.regCount.toNat, (t.devAt j).SameConfig (s.devAt j)

/-- A write of one descriptor that keeps its device's configuration. -/
theorem State.Inv.sameConfig_set {s : State} {h : Handle} {d : Device} (hi : s.Inv) (hd : d.SameConfig (s.dev h)) :
    ∀ j < s.regCount.toNat, ((s.devs.set h.toNat d).getD j Device.reset).SameConfig (s.devAt j) :=
  forall_slot_set (P := fun j e => e.SameConfig (s.devAt j)) hd (fun _ _ _ => .refl _) hi.regCount_le_length

theorem TransactionMove.keepsConfig {s t : State} (hi : s.Inv) (h : TransactionMove s t) :
    KeepsConfig s t ∧ t.regCount = s.regCount ∧ t.timer.period = s.timer.period := by
  cases h with
  | responds => exact ⟨⟨rfl, rfl, rfl, fun _ _ => .refl _⟩, rfl, rfl⟩
  | inFlight hreg hcursor hconfig hflight hruns hperiod hothers hmem =>
    exact ⟨⟨rfl, rfl, rfl, hi.sameConfig_set hconfig⟩, rfl, hperiod⟩
  | ended hf hconfig hidle hcounts hstopped hbudget hperiod =>
    exact ⟨⟨rfl, rfl, rfl, hi.sameConfig_set hconfig⟩, rfl, hperiod⟩

theorem QuietMove.keepsConfig {i : Instr} {s t : State} (hi : s.Inv) (h : QuietMove s i t) :
    KeepsConfig s t ∧ (i.op ≠ 0x1 → t.regCount = s.regCount) ∧
      (i.op ≠ 0x9 → t.timer.period = s.timer.period) := by
  cases h with
  | responds i st payload => exact ⟨⟨rfl, rfl, rfl, fun _ _ => .refl _⟩, fun _ => rfl, fun _ => rfl⟩
  | registered addr7 wbase rbase st payload hn =>
    refine ⟨⟨rfl, rfl, rfl, fun j hj => ?_⟩, fun hop => absurd rfl hop, fun _ => rfl⟩
    have hkept := State.devAt_setDev_other s (registeredDevice addr7 wbase rbase) (Nat.ne_of_lt hj)
    exact hkept ▸ .refl _
  | queued dev rs nsend nread st payload hd hidle =>
    exact ⟨⟨rfl, rfl, rfl, hi.sameConfig_set ⟨rfl, rfl, rfl⟩⟩, fun _ => rfl, fun _ => rfl⟩
  | acked dev st payload hd =>
    exact ⟨⟨rfl, rfl, rfl, hi.sameConfig_set ⟨rfl, rfl, rfl⟩⟩, fun _ => rfl, fun _ => rfl⟩
  | periodWritten period st payload =>
    exact ⟨⟨rfl, rfl, rfl, fun _ _ => .refl _⟩, fun _ => rfl, fun hop => absurd rfl hop⟩

/-- Settles O49: the frame of the move the command makes. -/
theorem configurationFrame : Obligations.ConfigurationFrame := by
  intro i s t hi h
  have hframe : KeepsConfig s t ∧ (i.op ≠ 0x1 → t.regCount = s.regCount) ∧
      (i.op ≠ 0x9 → t.timer.period = s.timer.period) := by
    obtain hmove | hquiet := exec_moves hi h
    · obtain ⟨hkept, hcount, hperiod⟩ := hmove.keepsConfig hi
      exact ⟨hkept, fun _ => hcount, fun _ => hperiod⟩
    · exact hquiet.keepsConfig hi
  obtain ⟨hkept, hcount, hperiod⟩ := hframe
  exact ⟨hkept.params, hkept.events, hkept.inputs, hcount, hperiod, hkept.devices⟩

end Sys2Proof.Machine
end

section
/-! The buffer memory: a host write of one byte, and the accesses of a command. -/

namespace Sys2Proof.Machine

/-- Bytes are read from the memory alone. -/
theorem State.readByte_congr {s t : State} (h : t.mem = s.mem) (a : Half) : t.readByte a = s.readByte a :=
  congrArg (Memory.readByte · a.toNat) h

/-! ## A host write -/

theorem step_of_hostWrite {s : State} {a : Half} {v : Byte} {rest : List Event}
    (h : s.events = .hostWrite a v :: rest) : step s = .next (s.hostWrite a v rest) := by
  simp only [step, h]

/-- Settles O10: the host's own path leaves the memory that `State.memWrite` leaves (R62, R64). -/
theorem hostWriteSetsOneByte : Obligations.HostWriteSetsOneByte := by
  intro s a v rest h hwf
  refine ⟨Memory.writeByte s.mem a.toNat v, step_of_hostWrite h, fun b => ?_⟩
  calc ({ s with mem := Memory.writeByte s.mem a.toNat v } : State).readByte b
      = (s.memWrite a v).readByte b := State.readByte_congr rfl b
    _ = if b = a then v else s.readByte b := s.readByte_memWrite a b v hwf

/-! ## The accesses of a command -/

/-- The command that takes `s` to `t` makes no access. -/
structure NoAccess (s t : State) : Prop where
  ops : t.memOps = s.memOps
  mem : t.mem = s.mem

/-- The one access of a POLL that takes `s` to `t`, by R65's two rules. -/
inductive BufferAccess (s t : State) : Prop where
  /-- R131, R135: the byte to transmit, at the write cursor as the POLL leaves it. -/
  | fetch (hops : t.memOps = s.memOps ++ [.read (t.dev s.active).writeAddr (s.readByte (t.dev s.active).writeAddr)])
    (hmem : t.mem = s.mem)
  /-- R141: the byte received, at the read cursor as the POLL finds it. -/
  | store (hops : t.memOps = s.memOps ++ [.write s.activeDev.readAddr s.inputs.rxdata])
    (hmem : t.mem = (s.memWrite s.activeDev.readAddr s.inputs.rxdata).mem)

theorem QuietMove.noAccess {i : Instr} {s t : State} (h : QuietMove s i t) : NoAccess s t := by
  cases h <;> exact ⟨rfl, rfl⟩

/-- BEGIN transmits at most the address byte (R65). -/
theorem begin_noAccess {s t : State} {dev : Handle} {rs : Bool} {nsend nread : Half} (hi : s.Inv)
    (h : exec (.beginTransfer dev rs nsend nread) s = .next t) : NoAccess s t := by
  obtain ⟨r, rfl⟩ | ⟨-, -, r, d, f, shadow, c, rfl, -⟩ := begin_inv hi h
  · exact ⟨rfl, rfl⟩
  · exact ⟨rfl, rfl⟩

/-- Three moves of a POLL reach the buffer memory, each with a transaction in flight. -/
theorem PollMove.bufferAccess {s : State} {p : PollResult} (hi : s.Inv) (h : PollMove s p) (r : Option Word) :
    NoAccess s { p.state with response := r } ∨ s.fsm ≠ .idle ∧ BufferAccess s { p.state with response := r } := by
  cases h with
  | addressWrite hf ht hk hn => exact .inr ⟨hf ▸ nofun, .fetch rfl rfl⟩
  | dataNext hf ht hk hn =>
    have hf' : s.fsm ≠ .idle := hf ▸ nofun
    have hdev := s.dev_setDev_same { s.activeDev with wcount := s.activeDev.wcount + 1 } (hi.activeSlot hf')
    refine .inr ⟨hf', .fetch ?_ rfl⟩
    exact hdev.symm ▸ rfl
  | received hf ht hs => exact .inr ⟨hf ▸ nofun, .store rfl rfl⟩
  | _ => exact .inl ⟨rfl, rfl⟩

/-- R65: only POLL reaches the buffer memory, and only outside Idle. -/
theorem exec_bufferAccess {i : Instr} {s t : State} (hi : s.Inv) (h : exec i s = .next t) :
    NoAccess s t ∨ i = .poll ∧ s.fsm ≠ .idle ∧ BufferAccess s t := by
  obtain rfl | ⟨dev, rs, nsend, nread, rfl⟩ | hquiet := exec_cases h
  · obtain ⟨r, p, hmove, rfl⟩ := poll_inv hi h
    exact (hmove.bufferAccess hi r).imp_right fun haccess => ⟨rfl, haccess⟩
  · exact .inl (begin_noAccess hi h)
  · exact .inl hquiet.noAccess

/-- Settles O48: the bytes that read otherwise after a command are those its access wrote. -/
theorem bufferAccessesPerStep : Obligations.BufferAccessesPerStep := by
  intro i s t hi h
  obtain ⟨hops, hmem⟩ | ⟨hpoll, hf, ⟨hops, hmem⟩ | ⟨hops, hmem⟩⟩ := exec_bufferAccess hi h
  · exact .inl ⟨hops, State.readByte_congr hmem⟩
  · exact .inr ⟨hpoll, hf, .inl ⟨_, rfl, hops, State.readByte_congr hmem⟩⟩
  · refine .inr ⟨hpoll, hf, .inr ⟨_, rfl, hops, fun b => ?_⟩⟩
    rw [State.readByte_congr hmem]
    exact s.readByte_memWrite _ b _ hi.memory

end Sys2Proof.Machine
end

section
/-! The decoder and the encoder: what the opcode says of a decoded command, what each format's fields hold, and which
operands the assembler takes. -/

namespace Sys2Proof

/-! ## The opcode -/

/-- R98, R105: the decoder's last arm, which the reserved opcodes take. -/
theorem decode_of_reserved {w : Word} (h : 12 ≤ (opField w).toNat) : decode w = .reserved (opField w) := by
  unfold decode
  split
  case h_13 => rfl
  all_goals omega

/-- R84: the arm the decoder takes is that of the opcode. -/
theorem op_decode (w : Word) : (decode w).op = opField w := by
  unfold decode
  split
  case h_13 => rfl
  all_goals next hop => exact BitVec.eq_of_toNat_eq hop.symm

/-- The reserved class is left only what the other arms have not taken, 0xC to 0xF (R98). -/
theorem wf_decode (w : Word) : (decode w).wf = true := by
  unfold decode
  split
  case h_13 =>
    rw [Instr.wf, decide_eq_true_iff]
    simp only [imp_false] at *
    omega
  all_goals rfl

/-- Settles O2: the opcode and the well-formedness, each by the arm the decoder takes. -/
theorem opcodeFieldSelectsCommand : Obligations.OpcodeFieldSelectsCommand := fun w => ⟨op_decode w, wf_decode w⟩

/-! ## The fields of each format (R82) -/

@[simp] theorem opField_formatN (op : BitVec 4) : opField (formatN op) = op := by simp [opField, field, formatN]

section
variable (op : BitVec 4) (addr7 : BitVec 7) (wbase rbase : Half)

@[simp] theorem opField_formatR : opField (formatR op addr7 wbase rbase) = op := by simp [opField, field, formatR]
@[simp] theorem addr7Field_formatR : addr7Field (formatR op addr7 wbase rbase) = addr7 := by
  simp [addr7Field, field, formatR]
@[simp] theorem upperField_formatR : upperField (formatR op addr7 wbase rbase) = wbase := by
  simp [upperField, field, formatR]
@[simp] theorem lowerField_formatR : lowerField (formatR op addr7 wbase rbase) = rbase := by
  simp [lowerField, field, formatR]

end

section
variable (op : BitVec 4) (dev : Handle) (rs : Bool) (nsend nread : Half)

@[simp] theorem opField_formatT : opField (formatT op dev rs nsend nread) = op := by simp [opField, field, formatT]
@[simp] theorem devField_formatT : devField (formatT op dev rs nsend nread) = dev := by
  simp [devField, field, formatT]
@[simp] theorem rsField_formatT : rsField (formatT op dev rs nsend nread) = rs := by simp [rsField, formatT]
@[simp] theorem upperField_formatT : upperField (formatT op dev rs nsend nread) = nsend := by
  simp [upperField, field, formatT]
@[simp] theorem lowerField_formatT : lowerField (formatT op dev rs nsend nread) = nread := by
  simp [lowerField, field, formatT]

end

@[simp] theorem opField_formatD (op : BitVec 4) (dev : Handle) : opField (formatD op dev) = op := by
  simp [opField, field, formatD]
@[simp] theorem devField_formatD (op : BitVec 4) (dev : Handle) : devField (formatD op dev) = dev := by
  simp [devField, field, formatD]

@[simp] theorem opField_formatP (op : BitVec 4) (period : Half) : opField (formatP op period) = op := by
  simp [opField, field, formatP]
@[simp] theorem lowerField_formatP (op : BitVec 4) (period : Half) : lowerField (formatP op period) = period := by
  simp [lowerField, field, formatP]

/-! ## Decoding an encoded command -/

/-- The opcode selects the command's own arm, and that arm reads the fields where the format put the operands. Only the
reserved class needs to be well formed: under another opcode it would be read as that opcode's command. -/
theorem decode_encode (i : Instr) (hwf : i.wf = true) : decode (encode i) = i := by
  cases i with
  | nop | poll | isBusIdle | readStatus | readTimer => decide
  | register | beginTransfer | queue | isFinished | getCounts | ackResult | writePeriod => simp [encode, decode]
  | reserved op =>
    have hop : opField (encode (.reserved op)) = op := opField_formatN op
    rw [decode_of_reserved (hop.symm ▸ of_decide_eq_true hwf), hop]

/-- Settles O1, by the command's format. -/
theorem decodeInvertsEncode : Obligations.DecodeInvertsEncode := decode_encode

/-- Settles O4: the words are closed, so the decoder runs on them. -/
theorem specWordsDecode : Obligations.SpecWordsDecode := by
  unfold Obligations.SpecWordsDecode
  decide

/-! ## The assembler -/

/-- R107: nothing but an operand that does not fit its field is refused. -/
theorem assemble_isSome_iff (a : Asm) : (assemble a).isSome = true ↔ a.wf = true := by
  rw [assemble, Option.isSome_ite]

/-- Settles O5, by what `Asm.wf` asks of each command. -/
theorem assemblerRefusesWideOperands : Obligations.AssemblerRefusesWideOperands := by
  simp only [Obligations.AssemblerRefusesWideOperands, assemble_isSome_iff, Asm.wf, Bool.and_eq_true, decide_eq_true_eq,
    and_assoc, implies_true, and_self]

end Sys2Proof
end

section
/-! Reserved bits: a command is decoded from the bits that its format names, and from no other (R97). -/

namespace Sys2Proof.Machine

/-- A mask that is 1 throughout a field keeps the field. -/
theorem field_and_mask {w m : Word} {lo n : Nat} (h : field m lo n = BitVec.allOnes n) :
    field (w &&& m) lo n = field w lo n := by
  rw [field] at h
  rw [field, field, BitVec.extractLsb'_and, h, BitVec.and_allOnes]

theorem rsField_and_mask {w m : Word} (h : rsField m = true) : rsField (w &&& m) = rsField w := by
  rw [rsField] at h
  rw [rsField, rsField, BitVec.getLsbD_and, h, Bool.and_true]

/-- Every format names OP (R82). -/
theorem opField_usedBits : ∀ op : BitVec 4, opField (usedBits op) = BitVec.allOnes 4 := by decide

theorem opField_and_usedBits (w : Word) (op : BitVec 4) : opField (w &&& usedBits op) = opField w :=
  field_and_mask (opField_usedBits op)

/-- R97: the mask of the opcode keeps OP, so both words take the same arm of the decoder, and it keeps each field that this
arm reads. -/
theorem decode_and_usedBits (w : Word) : decode (w &&& usedBits (opField w)) = decode w := by
  simp only [decode, opField_and_usedBits]
  split <;> next hop =>
    simp (disch := decide) only [usedBits, hop, addr7Field, devField, upperField, lowerField, field_and_mask,
      rsField_and_mask]

/-- Settles O3: the two steps run the same command on the same state. -/
theorem reservedBitsAreIgnored : Obligations.ReservedBitsAreIgnored := by
  intro s w x rest h
  rw [step_of_command h, step_of_command rfl]
  exact congrArg (exec · (s.openStep x rest)) (decode_and_usedBits w).symm

end Sys2Proof.Machine
end

section
/-! IS_BUS_IDLE: its response word, and that nothing else changes. -/

namespace Sys2Proof.Machine

/-- R89, R90: the payload's bit 0 is the response's. -/
theorem responseWord_notBusy (busy : Bool) :
    responseWord .ok (if busy then 0 else 1) = if busy = true then 0x0000000000000000#64 else 0x0000000000000001#64 := by
  cases busy <;> rfl

/-- Settles O20: IS_BUS_IDLE ends in a response alone, with this word. -/
theorem isBusIdleReportsNotBusy : Obligations.IsBusIdleReportsNotBusy := by
  intro s
  rw [exec, execIsBusIdle, finish, State.respond, responseWord_notBusy]

end Sys2Proof.Machine
end

section
/-! BEGIN on an idle block: the request recorded and the transfer started, with a START or after a repeated start. -/

namespace Sys2Proof.Machine

/-- BEGIN of a registered device on an idle block (R194). -/
theorem exec_begin_idle {s : State} {dev : Handle} (hreg : dev < s.regCount) (hbusy : s.busy = false) (rs : Bool)
    (nsend nread : Half) :
    exec (.beginTransfer dev rs nsend nread) s =
      finish ((s.setDev dev ((s.dev dev).initRequest nsend nread rs)).startTransfer dev) .ok (handlePayload dev) := by
  have hvalid : s.validHandle dev = true := (s.validHandle_iff dev).2 hreg
  simp [exec, execBegin, hvalid, hbusy]

/-- R85, R86: the response of a command that names the device it took. -/
theorem responseWord_handle (dev : Handle) : responseWord .ok (handlePayload dev) = 0x0#4 ++ (dev ++ 0#52) := rfl

/-- Settles O23: R127 on the request just recorded. -/
theorem beginIssuesStart : Obligations.BeginIssuesStart := by
  intro s dev rs ns nr hi hreg hbusy hrs
  have hf := hi.idle_of_not_busy hbusy
  have hdev := s.dev_setDev_same ((s.dev dev).initRequest ns nr rs) (hi.slot hreg)
  have hstart := State.startTransfer_start (s := s.setDev dev _) (by rw [hdev]; exact hrs) (hi.inactive hf)
    (hi.shadowIdle hf)
  rw [hdev, State.setDev_devs, List.set_set] at hstart
  rw [exec_begin_idle hreg hbusy, hstart, finish, State.respond, responseWord_handle]
  rfl

/-- Settles O24: R128 on the request just recorded, whose counts are those of the address byte's direction bit. -/
theorem beginAfterRepeatedStartSendsAddress : Obligations.BeginAfterRepeatedStartSendsAddress := by
  intro s dev rs ns nr hi hreg hbusy hrs
  have hf := hi.idle_of_not_busy hbusy
  have hdev := s.dev_setDev_same ((s.dev dev).initRequest ns nr rs) (hi.slot hreg)
  have hstart := State.startTransfer_skip (s := s.setDev dev _) (by rw [hdev]; exact hrs) (hi.inactive hf)
    (hi.shadowIdle hf)
  rw [hdev, State.setDev_devs, List.set_set, Device.addrByte_eq] at hstart
  rw [exec_begin_idle hreg hbusy, hstart, finish, State.respond, responseWord_handle]
  rfl

end Sys2Proof.Machine
end

section
/-! The transitions of the FSM (40_fsm.md), a rule per case: what each leaves of the state its signal is delivered in. -/

namespace Sys2Proof.Machine

theorem Device.masterRead_iff (d : Device) : d.masterRead = true ↔ d.nsend = 0 ∧ 0 < d.nread := by
  rw [Device.masterRead, Bool.and_eq_true, decide_eq_true_iff, decide_eq_true_iff]

/-- An acknowledged data byte moves the write cursor of the active device (R135 to R137). -/
def State.countSent (s : State) : State :=
  s.setDev s.active { s.activeDev with wcount := s.activeDev.wcount + 1 }

/-- The address of the byte after the one acknowledged (R66). -/
def State.nextByteAddr (s : State) : Half := s.activeDev.wbase + (s.activeDev.wcount + 1)

section
variable (s : State)

/-- R129. -/
theorem onBusIdle_start (hf : s.fsm = .start) :
    onBusIdle s = s.proceed .transmit s.activeDev.addrByte .writeAddress := by
  rw [onBusIdle, hf]
  rfl

/-- R130. -/
theorem onBusIdle_addressRead (hf : s.fsm = .writeAddress) (hk : s.inputs.ackstat = true) (hn : s.activeDev.nsend = 0)
    (hm : s.activeDev.nread ≠ 0) : onBusIdle s = s.proceed .enableRx 0 .readData := by
  have hread : s.activeDev.masterRead = true := Device.masterRead_of hn ((BitVec.pos_iff_ne_zero _).2 hm)
  simp only [onBusIdle, hf, onWriteAddress, if_pos hk, if_pos hread]

/-- R131, with the write cursor at 0. -/
theorem onBusIdle_addressWrite (hf : s.fsm = .writeAddress) (hk : s.inputs.ackstat = true)
    (hn : s.activeDev.nsend ≠ 0) (hw : s.activeDev.wcount = 0) :
    onBusIdle s =
      (s.noteRead s.activeDev.wbase).proceed .transmit (s.readByte s.activeDev.wbase) .writeData := by
  have haddr : s.activeDev.writeAddr = s.activeDev.wbase := by
    rw [Device.writeAddr, hw]
    exact BitVec.add_zero _
  have hread : ¬ s.activeDev.masterRead = true := fun h => hn (s.activeDev.masterRead_iff.1 h).1
  have hpos : 0 < s.activeDev.nsend := (BitVec.pos_iff_ne_zero _).2 hn
  simp only [onBusIdle, hf, onWriteAddress, if_pos hk, if_neg hread, if_pos hpos, haddr]

/-- R132, R133. -/
theorem onBusIdle_addressProbe (hf : s.fsm = .writeAddress) (hk : s.inputs.ackstat = true)
    (hn : s.activeDev.nsend = 0) (hm : s.activeDev.nread = 0) :
    onBusIdle s = s.endWrite s.activeDev.genrs := by
  have hread : ¬ s.activeDev.masterRead = true := fun h =>
    (BitVec.pos_iff_ne_zero _).1 (s.activeDev.masterRead_iff.1 h).2 hm
  have hpos : ¬ 0 < s.activeDev.nsend := fun h => (BitVec.pos_iff_ne_zero _).1 h hn
  simp only [onBusIdle, hf, onWriteAddress, if_pos hk, if_neg hread, if_neg hpos]

/-- R134. -/
theorem onBusIdle_addressNack (hf : s.fsm = .writeAddress) (hk : s.inputs.ackstat = false) :
    onBusIdle s = (s.setDev s.active { s.activeDev with result := .addressNack }).proceed .issueStop 0 .stop := by
  simp [onBusIdle, hf, onWriteAddress, hk]

/-- R135: the state stays WriteData. -/
theorem onBusIdle_dataNext (hf : s.fsm = .writeData) (hk : s.inputs.ackstat = true)
    (hn : s.activeDev.wcount + 1 < s.activeDev.nsend) :
    onBusIdle s = (s.countSent.noteRead s.nextByteAddr).proceed .transmit (s.readByte s.nextByteAddr) s.fsm := by
  simp only [onBusIdle, hf, onWriteData, if_pos hk, if_pos hn]
  rfl

/-- R136, R137. -/
theorem onBusIdle_dataLast (hf : s.fsm = .writeData) (hk : s.inputs.ackstat = true)
    (hn : s.activeDev.wcount + 1 = s.activeDev.nsend) : onBusIdle s = s.countSent.endWrite s.activeDev.genrs := by
  have hlt : ¬ s.activeDev.wcount + 1 < s.activeDev.nsend := hn ▸ BitVec.lt_irrefl _
  simp only [onBusIdle, hf, onWriteData, if_pos hk, if_neg hlt, if_pos hn]
  rfl

/-- R138: the signal is lost. -/
theorem onBusIdle_dataNack (hf : s.fsm = .writeData) (hk : s.inputs.ackstat = false) : onBusIdle s = s := by
  simp [onBusIdle, hf, onWriteData, hk]

/-- R139. -/
theorem onBusIdle_restart (hf : s.fsm = .restart) :
    onBusIdle s = (s.setDev s.active { s.activeDev with rspend := true, genrs := false }).disarm.complete := by
  rw [onBusIdle, hf]
  rfl

/-- R140. -/
theorem onBusIdle_stop (hf : s.fsm = .stop) : onBusIdle s = s.disarm.complete := by
  rw [onBusIdle, hf]
  rfl

/-- R142: the state stays ReadData. -/
theorem onBusIdle_readNext (hf : s.fsm = .readData) (hn : s.activeDev.rcount < s.activeDev.nread) :
    onBusIdle s = s.proceed .enableRx 0 s.fsm := by
  simp only [onBusIdle, hf, onReadDataBusIdle, if_pos hn]

/-- R143. -/
theorem onBusIdle_readLast (hf : s.fsm = .readData) (hn : s.activeDev.rcount = s.activeDev.nread) :
    onBusIdle s = s.proceed .issueStop 0 .stop := by
  have hlt : ¬ s.activeDev.rcount < s.activeDev.nread := hn ▸ BitVec.lt_irrefl _
  simp only [onBusIdle, hf, onReadDataBusIdle, if_neg hlt, if_pos hn]

end

end Sys2Proof.Machine
end

section
/-! A POLL in which the one outstanding action completes: the state its signal is delivered in, and the state after it. -/

namespace Sys2Proof.Machine

/-! ## The state a transition starts from -/

/-- The timer has had its tick, and the shadow bit `b` of the completed action is clear (R200, R202). -/
def State.delivers (s : State) (b : Nat) : State :=
  { s with timer := s.timer.tick.timer, shadow := clearBit s.shadow b }

theorem clearBit_single (b : Nat) : clearBit (1#6 <<< b) b = 0 := BitVec.and_not_self _

theorem setBit_zero (b : Nat) : setBit 0 b = 1#6 <<< b := BitVec.zero_or

theorem State.delivers_of_single {s : State} {b : Nat} (hs : s.shadow = 1#6 <<< b) :
    s.delivers b = { s with timer := s.timer.tick.timer, shadow := 0 } := by
  rw [State.delivers, hs, clearBit_single]

/-- The tick plays no part in the timer of the next command (R124, R176). -/
theorem State.armedTimer_delivers (s : State) (b : Nat) : (s.delivers b).armedTimer = s.armedTimer := by
  simp only [State.armedTimer, State.delivers, Timer.tick_period]

/-- The next action is outstanding alone, and its timer is fresh (R124 to R126). -/
theorem State.proceed_delivers {s : State} {code : PeriphCode} {b c : Nat} (hs : s.shadow = 1#6 <<< b)
    (hc : code.shadowBit = some c) (data : Byte) (next : FsmState) :
    (s.delivers b).proceed code data next = s.moved next (1#6 <<< c) [⟨code, data⟩] := by
  rw [State.proceed_eq _ hc, State.armedTimer_delivers, State.delivers_of_single hs, setBit_zero]
  rfl

/-- R141: READ_RX is no bus command, so SEND_ACK alone sets a shadow bit and arms the timer. -/
theorem onDataReceived_delivers {s : State} (hs : s.shadow = 1#6 <<< 0) :
    onDataReceived (s.delivers 0) =
      { s.moved s.fsm (1#6 <<< 2)
          [⟨.readRx, 0⟩, ⟨.sendAck, if s.activeDev.rcount + 1 < s.activeDev.nread then 1 else 0⟩] with
        mem := (s.memWrite s.activeDev.readAddr s.inputs.rxdata).mem
        devs := s.devs.set s.active.toNat { s.activeDev with rcount := s.activeDev.rcount + 1 }
        memOps := s.memOps ++ [.write s.activeDev.readAddr s.inputs.rxdata] } := by
  rw [State.delivers_of_single hs]
  simp [onDataReceived, State.issue, PeriphCode.shadowBit, State.disarm, State.memWrite, State.setDev, State.dev,
    State.devAt, State.moved, State.armedTimer, setBit]

/-- The transaction ends with its timer ticked and disarmed (R123). -/
theorem State.complete_delivers {s : State} {b : Nat} (hs : s.shadow = 1#6 <<< b) :
    (s.delivers b).disarm.complete =
      s.ended s.timer.tick.timer.disarm { s.activeDev with finished := true, state := .idle } := by
  rw [State.delivers_of_single hs]
  rfl

/-- The segment ends with the hold recorded in the descriptor that R123 finishes (R139). -/
theorem State.complete_held {s : State} {b : Nat} (hs : s.shadow = 1#6 <<< b) (hslot : s.active.toNat < s.devs.length) :
    ((s.delivers b).setDev s.active { s.activeDev with rspend := true, genrs := false }).disarm.complete =
      s.ended s.timer.tick.timer.disarm
        { s.activeDev with rspend := true, genrs := false, finished := true, state := .idle } := by
  have hdev := s.dev_setDev_same { s.activeDev with rspend := true, genrs := false } hslot
  have hend := State.complete_delivers
    (s := s.setDev s.active { s.activeDev with rspend := true, genrs := false }) hs
  refine hend.trans ?_
  simp only [State.ended, State.activeDev, State.setDev_active, hdev, State.setDev_devs, List.set_set]
  rfl

/-- The timer of a device that has finished (R177, R178). -/
theorem State.ticked_disarmed {s : State} (ha : s.timer.active = true) (ht : s.TickSurvives) :
    s.timer.tick.timer.disarm =
      { s.timer with
        count := if 1 < s.timer.count then s.timer.count - 1 else s.timer.period
        retryBudget := if 1 < s.timer.count then s.timer.retryBudget else s.timer.retryBudget - 1
        start := false, active := false, expired := false, exhausted := false } := by
  obtain ⟨-, -, hcount, hbudget⟩ := State.tick_survives ha ht
  rw [Timer.disarm, hcount, hbudget, Timer.tick_period]

/-! ## The state after the POLL -/

/-- The next POLL delivers BUS_IDLE: the one outstanding action, of shadow bit `b`, completes, and the tick leaves time
(R162, R163, R165). -/
structure State.TakesBusIdle (s : State) (b : Nat) : Prop where
  inv : s.Inv
  survives : s.TickSurvives
  notIdle : s.fsm ≠ .idle
  noReceive : b ≠ 0
  outstanding : s.shadow = 1#6 <<< b
  fires : firingBit s.shadow s.inputs = some b

namespace State.TakesBusIdle

/-- An action that waits on nothing but its live bit. -/
theorem single {s : State} {b : Nat} (hi : s.Inv) (ht : s.TickSurvives) (hf : s.fsm ≠ .idle)
    (hb : b ∈ [5, 4, 3, 2]) (hs : s.shadow = 1#6 <<< b) (hl : s.inputs.live.getLsbD b = false) : s.TakesBusIdle b :=
  ⟨hi, ht, hf, fun h => absurd (h ▸ hb) (by decide), hs, hs ▸ firingBit_single hb hl⟩

/-- A transmit, which also waits for TRF (R163). -/
theorem transmit {s : State} (hi : s.Inv) (ht : s.TickSurvives) (hf : s.fsm ≠ .idle) (hs : s.shadow = 0b000010#6)
    (hl : s.inputs.live.getLsbD 1 = false) (htrf : s.inputs.trf = false) : s.TakesBusIdle 1 :=
  ⟨hi, ht, hf, by decide, hs, hs ▸ firingBit_transmit hl htrf⟩

/-- The address byte's transmit. -/
theorem address {s : State} (hi : s.Inv) (ht : s.TickSurvives) (hf : s.fsm = .writeAddress)
    (hl : s.inputs.live.getLsbD 1 = false) (htrf : s.inputs.trf = false) : s.TakesBusIdle 1 :=
  transmit hi ht (hf ▸ nofun) (hi.shadowAddress hf) hl htrf

section
variable {s : State} {b : Nat} (h : s.TakesBusIdle b)
include h

/-- The POLL leaves what the transition does, and answers EV = 1. -/
theorem poll {t : State} (hstep : onBusIdle (s.delivers b) = t) :
    ∃ r : Word, exec .poll s = .next { t with response := some r } ∧ r.extractLsb' 19 3 = 1 := by
  have hsig : completionSignal b = .busIdle := if_neg h.noReceive
  have hpoll := poll_completes (t := t) h.inv h.notIdle h.survives h.fires (hsig ▸ hstep)
  rwa [hsig] at hpoll

/-- A consuming transition, on the state `u` that differs from `s` in what the transition writes before its command. -/
theorem poll_proceeds {u : State} {code : PeriphCode} {data : Byte} {next : FsmState} {c : Nat}
    (hu : u.shadow = s.shadow) (hc : code.shadowBit = some c)
    (hstep : onBusIdle (s.delivers b) = (u.delivers b).proceed code data next) :
    ∃ r : Word, exec .poll s = .next { u.moved next (1#6 <<< c) [⟨code, data⟩] with response := some r } ∧
      r.extractLsb' 19 3 = 1 :=
  h.poll (hstep.trans (State.proceed_delivers (hu.trans h.outstanding) hc data next))

/-- The end of a write, with RESTART or STOP as the caller asked. -/
theorem poll_endsWrite {u : State} {genrs : Bool} (hu : u.shadow = s.shadow)
    (hstep : onBusIdle (s.delivers b) = (u.delivers b).endWrite genrs) :
    ∃ r : Word, r.extractLsb' 19 3 = 1 ∧
      (genrs = true → exec .poll s = .next
        { u.moved .restart 0b010000#6 [⟨.issueRestart, 0⟩] with response := some r }) ∧
      (genrs = false → exec .poll s = .next
        { u.moved .stop 0b001000#6 [⟨.issueStop, 0⟩] with response := some r }) := by
  cases genrs with
  | false =>
    obtain ⟨r, hexec, hev⟩ := h.poll_proceeds hu (code := .issueStop) rfl hstep
    exact ⟨r, hev, nofun, fun _ => hexec⟩
  | true =>
    obtain ⟨r, hexec, hev⟩ := h.poll_proceeds hu (code := .issueRestart) rfl hstep
    exact ⟨r, hev, fun _ => hexec, nofun⟩

end

end State.TakesBusIdle

end Sys2Proof.Machine
end

section
/-! POLL on a completed action, state by state: the statements on R129 to R143. -/

namespace Sys2Proof.Machine

/-! ## Start -/

/-- Settles O32, with the address byte's direction written out. -/
theorem startDoneSendsAddress : Obligations.StartDoneSendsAddress := by
  intro s hi ht hf hl
  have h := State.TakesBusIdle.single hi ht (hf ▸ nofun) (by decide) (hi.shadowStart hf) hl
  rw [← Device.addrByte_eq]
  exact h.poll_proceeds (u := s) rfl rfl (onBusIdle_start (s.delivers 5) hf)

/-! ## WriteAddress -/

/-- Settles O33: the counts make the transaction a read (R122, R130). -/
theorem addressAckedReadEnablesReceiver : Obligations.AddressAckedReadEnablesReceiver := by
  intro s hi ht hf hl htrf hk hn hm
  exact (State.TakesBusIdle.address hi ht hf hl htrf).poll_proceeds (u := s) rfl rfl
    (onBusIdle_addressRead (s.delivers 1) hf hk hn hm)

/-- Settles O34: the write cursor is still 0, so the first byte is the one at `wbase`. -/
theorem addressAckedWriteSendsFirstByte : Obligations.AddressAckedWriteSendsFirstByte := by
  intro s hi ht hf hl htrf hk hn
  exact (State.TakesBusIdle.address hi ht hf hl htrf).poll_proceeds (u := s.noteRead s.activeDev.wbase) rfl rfl
    (onBusIdle_addressWrite (s.delivers 1) hf hk hn (hi.addressCounts hf).1)

/-- Settles O35: with both counts 0 the address byte ends the write (R132, R133). -/
theorem addressAckedProbeEnds : Obligations.AddressAckedProbeEnds := by
  intro s hi ht hf hl htrf hk hn hm
  exact (State.TakesBusIdle.address hi ht hf hl htrf).poll_endsWrite (u := s) rfl
    (onBusIdle_addressProbe (s.delivers 1) hf hk hn hm)

/-- Settles O36: the direction plays no part. -/
theorem addressNackRecordsAndStops : Obligations.AddressNackRecordsAndStops := by
  intro s hi ht hf hl htrf hk
  exact (State.TakesBusIdle.address hi ht hf hl htrf).poll_proceeds
    (u := s.setDev s.active { s.activeDev with result := .addressNack }) rfl rfl
    (onBusIdle_addressNack (s.delivers 1) hf hk)

/-! ## WriteData -/

/-- Settles O37: the byte is read with the write cursor already moved on (R135). -/
theorem dataAckedSendsNextByte : Obligations.DataAckedSendsNextByte := by
  intro s hi ht hf hs hl htrf hk hn a
  exact (State.TakesBusIdle.transmit hi ht (hf ▸ nofun) hs hl htrf).poll_proceeds (u := s.countSent.noteRead a) rfl rfl
    (onBusIdle_dataNext (s.delivers 1) hf hk hn)

/-- Settles O38: the byte is counted before the write ends (R136, R137). -/
theorem lastDataAckedEndsWrite : Obligations.LastDataAckedEndsWrite := by
  intro s hi ht hf hs hl htrf hk hn devs
  exact (State.TakesBusIdle.transmit hi ht (hf ▸ nofun) hs hl htrf).poll_endsWrite (u := s.countSent) rfl
    (onBusIdle_dataLast (s.delivers 1) hf hk hn)

/-- Settles O39: the signal is lost, so the POLL leaves the state it was delivered in. Where the tick exhausts the budget
the statement says nothing (R201 is another's). -/
theorem dataNackOnlyClearsShadow : Obligations.DataNackOnlyClearsShadow := by
  intro s hi hf hs hl htrf hk
  have hf' : s.fsm ≠ .idle := hf ▸ nofun
  have ha := hi.activeTimer hf'
  by_cases ht : s.TickSurvives
  · have h := State.TakesBusIdle.transmit hi ht hf' hs hl htrf
    obtain ⟨r, hexec, hev⟩ := h.poll (onBusIdle_dataNack (s.delivers 1) hf hk)
    rw [State.delivers_of_single h.outstanding] at hexec
    refine ⟨r, hev, fun hc => ?_, fun hc hb => ?_⟩
    · rw [hexec, Timer.tick_counts ha hc]
    · rw [hexec, Timer.tick_expires ha hc hb]
  · refine ⟨responseWord .ok (s.statusView (some .busIdle) false), statusView_ev _ _ _, fun hc => ?_, fun hc hb => ?_⟩
    · exact absurd (fun hx => BitVec.not_lt.2 hx.2.1 hc) ht
    · exact absurd (fun hx => hb hx.2.2) ht

/-! ## Restart and Stop -/

/-- Settles O40: R139 writes the descriptor before R123 finishes it. -/
theorem restartDoneEndsSegment : Obligations.RestartDoneEndsSegment := by
  intro s hi ht hf hl devs
  have hf' : s.fsm ≠ .idle := hf ▸ nofun
  have h := State.TakesBusIdle.single hi ht hf' (by decide) (hi.shadowRestart hf) hl
  rw [← State.ticked_disarmed (hi.activeTimer hf') ht]
  exact h.poll ((onBusIdle_restart (s.delivers 4) hf).trans (State.complete_held h.outstanding (hi.activeSlot hf')))

/-- Settles O41: R140 is R123 alone, after the disarm. -/
theorem stopDoneFinishesDevice : Obligations.StopDoneFinishesDevice := by
  intro s hi ht hf hl devs
  have hf' : s.fsm ≠ .idle := hf ▸ nofun
  have h := State.TakesBusIdle.single hi ht hf' (by decide) (hi.shadowStop hf) hl
  rw [← State.ticked_disarmed (hi.activeTimer hf') ht]
  exact h.poll ((onBusIdle_stop (s.delivers 3) hf).trans (State.complete_delivers h.outstanding))

/-! ## ReadData -/

/-- Settles O42: DATA_RECEIVED, and the byte written as the buffer memory reads it afterwards (R63, R64). -/
theorem receivedByteIsStoredAndAcked : Obligations.ReceivedByteIsStoredAndAcked := by
  intro s hi ht hf hs hl hrda d a
  have hstep : transition (completionSignal 0) (s.delivers 0) = _ :=
    (if_pos hf).trans (onDataReceived_delivers hs)
  obtain ⟨r, hexec, hev⟩ := poll_completes hi (hf ▸ nofun) ht (hs ▸ firingBit_receive hl hrda) hstep
  refine ⟨r, (s.memWrite a s.inputs.rxdata).mem, hexec, fun b => ?_, hev⟩
  rw [← s.readByte_memWrite a b s.inputs.rxdata hi.memory]
  exact State.readByte_congr rfl b

/-- Settles O43: by R52 the two cases are all there are. -/
theorem ackDoneReceivesNextOrStops : Obligations.AckDoneReceivesNextOrStops := by
  intro s hi ht hf hs hl
  have hf' : s.fsm ≠ .idle := hf ▸ nofun
  have h := State.TakesBusIdle.single hi ht hf' (by decide) hs hl
  by_cases hn : s.activeDev.rcount < s.activeDev.nread
  · obtain ⟨r, hexec, hev⟩ := h.poll_proceeds (u := s) rfl rfl (onBusIdle_readNext (s.delivers 2) hf hn)
    exact ⟨r, hev, fun _ => hexec, fun he => absurd he (BitVec.ne_of_lt hn)⟩
  · have hle := (hi.activeInFlight hf').counts.2
    have heq := BitVec.le_antisymm hle (BitVec.not_lt.1 hn)
    obtain ⟨r, hexec, hev⟩ := h.poll_proceeds (u := s) rfl rfl (onBusIdle_readLast (s.delivers 2) hf heq)
    exact ⟨r, hev, (absurd · hn), fun _ => hexec⟩

end Sys2Proof.Machine
end

section
/-! Every bus command starts with a full countdown. -/

namespace Sys2Proof.Machine

/-- What a command that sent something to the peripheral leaves: the timer just armed, a transaction in flight. -/
structure Armed (s t : State) : Prop where
  timer : t.timer = s.armedTimer
  notIdle : t.fsm ≠ .idle

/-- The moves of a POLL that issue a command all arm the timer (R124 to R126). -/
theorem PollMove.silent_or_armed {s : State} {p : PollResult} (h : PollMove s p) (r : Option Word) :
    p.state.periphOut = s.periphOut ∨ Armed s { p.state with response := r } := by
  cases h with
  | quiet | abort | waits | dataNack | restartDone | stopDone => exact .inl rfl
  | _ => exact .inr ⟨rfl, nofun⟩

theorem QuietMove.silent {i : Instr} {s t : State} (h : QuietMove s i t) : t.periphOut = s.periphOut := by
  cases h <;> rfl

/-- A command that sends anything to the peripheral arms the timer. -/
theorem exec_silent_or_armed {i : Instr} {s t : State} (hi : s.Inv) (h : exec i s = .next t) :
    t.periphOut = s.periphOut ∨ Armed s t := by
  obtain rfl | ⟨dev, rs, nsend, nread, rfl⟩ | hquiet := exec_cases h
  · obtain ⟨r, p, hmove, rfl⟩ := poll_inv hi h
    exact hmove.silent_or_armed r
  · obtain ⟨r, rfl⟩ | ⟨-, -, r, d, f, shadow, c, rfl, -, -, -, hfirst⟩ := begin_inv hi h
    · exact .inl rfl
    · obtain ⟨rfl, -⟩ | ⟨rfl, -⟩ := hfirst <;> exact .inr ⟨rfl, nofun⟩
  · exact .inl hquiet.silent

/-- Settles O54: READ_RX needs no exception, since it goes out with SEND_ACK only (R141). -/
theorem busCommandStartsFullCountdown : Obligations.BusCommandStartsFullCountdown := by
  intro i s t l c hi h hout hc _
  obtain hsilent | ⟨htimer, hne⟩ := exec_silent_or_armed hi h
  · have hnil : l = [] := List.append_right_eq_self.1 (hout.symm.trans hsilent)
    exact absurd hc (hnil ▸ List.not_mem_nil)
  · exact ⟨htimer, hne⟩

end Sys2Proof.Machine
end

section
/-! The status adapter: of the actions that complete, the one with the highest index gives the signal (R165). -/

namespace Sys2Proof.Machine

/-- In a list in descending order, the search from the front finds the greatest element that passes. -/
theorem find?_eq_some_iff_of_descending {p : Nat → Bool} {l : List Nat} {b : Nat} (hl : l.Pairwise (· > ·)) :
    l.find? p = some b ↔ b ∈ l ∧ p b = true ∧ ∀ i ∈ l, b < i → ¬ p i = true := by
  induction hl with
  | nil => simp
  | @cons a l ha _ ih =>
    by_cases hp : p a = true
    · rw [List.find?_cons_of_pos hp, Option.some.injEq]
      constructor
      · rintro rfl
        refine ⟨List.mem_cons_self, hp, fun i hi hlt => ?_⟩
        obtain rfl | hi := List.mem_cons.1 hi
        · exact absurd hlt (Nat.lt_irrefl _)
        · exact absurd hlt (Nat.lt_asymm (ha i hi))
      · rintro ⟨hb, -, hmax⟩
        obtain rfl | hb := List.mem_cons.1 hb
        · rfl
        · exact absurd hp (hmax a List.mem_cons_self (ha b hb))
    · rw [List.find?_cons_of_neg hp, ih]
      have hne : p b = true → b ≠ a := fun hpb hba => hp (hba ▸ hpb)
      simp only [List.mem_cons, forall_eq_or_imp]
      constructor
      · exact fun ⟨hb, hpb, hmax⟩ => ⟨.inr hb, hpb, fun _ => hp, hmax⟩
      · exact fun ⟨hb, hpb, _, hmax⟩ => ⟨hb.resolve_left (hne hpb), hpb, hmax⟩

/-- Only the six shadow bits stand for an action. -/
theorem actionCompletes.lt_six {shadow : BitVec 6} {x : PeriphInputs} {i : Nat} (h : actionCompletes shadow x i) : i < 6 :=
  BitVec.lt_of_getLsbD h.1

/-- The adapter examines every action that can complete. -/
theorem actionCompletes.examined {shadow : BitVec 6} {x : PeriphInputs} {i : Nat} (h : actionCompletes shadow x i) :
    i ∈ [5, 4, 3, 2, 1, 0] := by
  have := h.lt_six
  simp only [List.mem_cons, List.not_mem_nil, or_false]
  omega

/-- The adapter takes the completed action with the highest index (R165). -/
theorem firingBit_some_iff (shadow : BitVec 6) (x : PeriphInputs) (b : Nat) :
    firingBit shadow x = some b ↔ actionCompletes shadow x b ∧ ∀ i, b < i → ¬ actionCompletes shadow x i := by
  unfold firingBit
  rw [find?_eq_some_iff_of_descending (by decide)]
  simp only [fires_iff]
  constructor
  · exact fun ⟨_, hb, hmax⟩ => ⟨hb, fun i hlt hi => hmax i hi.examined hlt hi⟩
  · exact fun ⟨hb, hmax⟩ => ⟨hb.examined, hb, fun i _ => hmax i⟩

/-- Settles O27: the adapter's list is in descending order and holds every index that can fire. -/
theorem adapterPicksHighestFiringBit : Obligations.AdapterPicksHighestFiringBit := firingBit_some_iff

end Sys2Proof.Machine
end

section
/-! A POLL in which no action completes: the tick is all that happens. -/

namespace Sys2Proof.Machine

/-- R200, R145, R202: such a POLL leaves the state as it was but for the timer, if the tick leaves time. -/
theorem poll_waits {s : State} (hi : s.Inv) (hf : s.fsm ≠ .idle) (ht : s.TickSurvives)
    (hw : nothingCompletes s.shadow s.inputs) :
    ∃ r : Word, exec .poll s = .next { s with timer := s.timer.tick.timer, response := some r } ∧
      r.extractLsb' 19 3 = evCode (if s.timer.tick.timeout then some .timeout else none) ∧
      r.getLsbD 18 = s.timer.tick.timeout :=
  poll_of_phases (pollPhases_waits hf (hi.activeTimer hf) ht ((firingBit_none_iff _ _).2 hw))

/-- Settles O29: the tick is R178's expiry with budget left. -/
theorem pollReportsTimeout : Obligations.PollReportsTimeout := by
  intro s hi hf hw hc hb
  have hpoll := poll_waits hi hf (fun h => hb h.2.2) hw
  rwa [Timer.tick_expires (hi.activeTimer hf) hc hb] at hpoll

end Sys2Proof.Machine
end

section
/-! The retry timer as a measure: the ticks until it aborts, and what each tick takes from them (R178, R181, R183). -/

namespace Sys2Proof.Machine

/-- The number of ticks until a running timer exhausts its budget: the rest of this countdown, and a whole countdown for
each further unit of budget. -/
def Timer.ticksLeft (t : Timer) : Nat := (t.retryBudget.toNat - 1) * t.spacing + max t.count.toNat 1

theorem Timer.spacing_pos (t : Timer) : 0 < t.spacing := Nat.lt_of_lt_of_le Nat.zero_lt_one (Nat.le_max_right _ _)

theorem Timer.ticksLeft_pos (t : Timer) : 0 < t.ticksLeft :=
  Nat.lt_of_lt_of_le Nat.zero_lt_one (Nat.le_add_left_of_le (Nat.le_max_right _ _))

@[simp] theorem Timer.tick_spacing (t : Timer) : t.tick.timer.spacing = t.spacing := by
  rw [Timer.spacing, Timer.tick_period, Timer.spacing]

/-- With the countdown just loaded, every unit of budget is worth a whole one. -/
theorem Timer.ticksLeft_of_loaded {t : Timer} (hb : t.retryBudget ≠ 0) (hc : t.count = t.period) :
    t.ticksLeft = t.retryBudget.toNat * t.spacing := by
  have hpos : 1 ≤ t.retryBudget.toNat := (BitVec.pos_iff_ne_zero _).2 hb
  calc t.ticksLeft
      = (t.retryBudget.toNat - 1) * t.spacing + t.spacing := by rw [Timer.ticksLeft, hc]; rfl
    _ = (t.retryBudget.toNat - 1 + 1) * t.spacing := (Nat.succ_mul _ _).symm
    _ = t.retryBudget.toNat * t.spacing := by rw [Nat.sub_add_cancel hpos]

/-- Exactly the last tick exhausts the budget (R180). -/
theorem State.tickSurvives_iff {s : State} (hi : s.Inv) (hf : s.fsm ≠ .idle) :
    s.TickSurvives ↔ 1 < s.timer.ticksLeft := by
  have ha := hi.activeTimer hf
  have hb : 0 < s.timer.retryBudget.toNat := (BitVec.pos_iff_ne_zero _).2 (hi.budgetLeft ha)
  have hone : s.timer.retryBudget = 1 ↔ s.timer.retryBudget.toNat = 1 := BitVec.toNat_inj.symm
  have hlast : s.timer.count ≤ 1 ↔ s.timer.count.toNat ≤ 1 := Iff.rfl
  rw [State.TickSurvives, Timer.ticksLeft, hlast, hone]
  constructor
  · intro ht
    by_cases hbudget : s.timer.retryBudget.toNat = 1
    · have hc : ¬ s.timer.count.toNat ≤ 1 := fun hc => ht ⟨ha, hc, hbudget⟩
      omega
    · have hmore : 0 < (s.timer.retryBudget.toNat - 1) * s.timer.spacing :=
        Nat.mul_pos (by omega) s.timer.spacing_pos
      omega
  · rintro hmore ⟨-, hc, hbudget⟩
    rw [hbudget, Nat.sub_self, Nat.zero_mul] at hmore
    omega

/-- Every tick before the last takes one. -/
theorem State.ticksLeft_tick {s : State} (hi : s.Inv) (hf : s.fsm ≠ .idle) (ht : s.TickSurvives) :
    s.timer.tick.timer.ticksLeft + 1 = s.timer.ticksLeft := by
  obtain ⟨-, -, hcount, hbudget⟩ := State.tick_survives (hi.activeTimer hf) ht
  by_cases hc : 1 < s.timer.count
  · have hmore : 1 < s.timer.count.toNat := hc
    have hless : (s.timer.count - 1).toNat = s.timer.count.toNat - 1 := by bv_omega
    rw [Timer.ticksLeft, Timer.ticksLeft, Timer.tick_spacing, hcount, hbudget, if_pos hc, if_pos hc, hless]
    omega
  · have hlast : s.timer.count.toNat ≤ 1 := BitVec.not_lt.1 hc
    have hleft := hi.budgetLeft (hi.activeTimer hf)
    have hless : (s.timer.retryBudget - 1).toNat = s.timer.retryBudget.toNat - 1 := by bv_omega
    rw [if_neg hc] at hcount hbudget
    rw [Timer.ticksLeft_of_loaded (hi.tickedTimer_ok hf ht).2.1 (hcount.trans (Timer.tick_period _).symm),
      Timer.tick_spacing, hbudget, hless, Timer.ticksLeft, Nat.max_eq_right hlast]

end Sys2Proof.Machine
end

section
/-! A run of POLLs in which no signal arrives that the FSM consumes: each leaves the transaction where it is and takes
one tick, and the last tick aborts it (R183). -/

namespace Sys2Proof.Machine

/-! ## A step of the run -/

theorem run_succ {s t : State} (h : step s = .next t) (k : Nat) :
    Sys2Proof.core.run (k + 1) s = Sys2Proof.core.run k t := by
  have hstep : Sys2Proof.core.step s = .next t := h
  simp only [Host.Core.run, hstep]

theorem decode_poll : decode 0x4000000000000000#64 = .poll := rfl

theorem step_of_poll {s : State} {x : PeriphInputs} {rest : List Event} (h : s.events = pollEvent x :: rest) :
    step s = exec .poll (s.openStep x rest) := by
  rw [step_of_command h, decode_poll]

/-! ## A POLL before the last -/

/-- What is left of R183's premise after the first POLL: it completes nothing, or it is the one that loses a data byte's
signal, and then nothing is outstanding. -/
theorem State.Unconsumed.head {s : State} {x : PeriphInputs} {xs : List PeriphInputs} (h : s.Unconsumed (x :: xs)) :
    (nothingCompletes s.shadow x ∧ s.Unconsumed xs) ∨
      (s.fsm = .writeData ∧ actionCompletes s.shadow x 1 ∧ x.ackstat = false) := by
  obtain hall | ⟨hf, before, y, after, hxs, hbefore, hy, hk⟩ := h
  · obtain ⟨hx, hxs⟩ := List.forall_mem_cons.1 hall
    exact .inl ⟨hx, .inl hxs⟩
  · cases before with
    | nil =>
      obtain ⟨rfl, -⟩ := List.cons.inj hxs
      exact .inr ⟨hf, hy, hk⟩
    | cons b before =>
      obtain ⟨rfl, rfl⟩ := List.cons.inj hxs
      obtain ⟨hx, hbefore⟩ := List.forall_mem_cons.1 hbefore
      exact .inl ⟨hx, .inr ⟨hf, before, y, after, rfl, hbefore, hy, hk⟩⟩

theorem State.unconsumed_of_shadow_zero {s : State} (h : s.shadow = 0) (xs : List PeriphInputs) : s.Unconsumed xs :=
  .inl fun x _ => h ▸ nothingCompletes_zero x

/-- A transmit is outstanding in WriteData, if anything is (R50). -/
theorem State.Inv.transmitOutstanding {s : State} (hi : s.Inv) (hf : s.fsm = .writeData)
    (h : s.shadow.getLsbD 1 = true) : s.shadow = 0b000010#6 := by
  have haction := hi.shadowOne
  rw [hf] at haction
  obtain hs | hs := haction
  · exact hs
  · rw [hs] at h
    cases h

/-- R138 in a POLL: the signal of a data byte not acknowledged is lost. -/
theorem poll_dataNack {s : State} (hi : s.Inv) (ht : s.TickSurvives) (hf : s.fsm = .writeData)
    (hc : actionCompletes s.shadow s.inputs 1) (hk : s.inputs.ackstat = false) :
    ∃ r : Word, exec .poll s = .next { s with timer := s.timer.tick.timer, shadow := 0, response := some r } := by
  obtain ⟨hset, hlive, htrf, -⟩ := hc
  have h := State.TakesBusIdle.transmit hi ht (hf ▸ nofun) (hi.transmitOutstanding hf hset) hlive (htrf rfl)
  obtain ⟨r, hexec, -⟩ := h.poll (onBusIdle_dataNack (s.delivers 1) hf hk)
  rw [State.delivers_of_single h.outstanding] at hexec
  exact ⟨r, hexec⟩

/-- The transaction of `s` is in the same place in `t`, one tick later. -/
structure State.Waits (s t : State) : Prop where
  fsm : t.fsm = s.fsm
  active : t.active = s.active
  devs : t.devs = s.devs
  timer : t.timer = s.timer.tick.timer

theorem State.Waits.dev {s t : State} (h : s.Waits t) : t.dev t.active = s.dev s.active := by
  rw [h.active]
  exact State.devAt_congr h.devs _

/-- A POLL whose signal, if any, the FSM does not consume, and whose tick is not the last. -/
theorem step_unconsumed {s : State} {x : PeriphInputs} {xs : List PeriphInputs} {rest : List Event} (hi : s.Inv)
    (hf : s.fsm ≠ .idle) (ht : s.TickSurvives) (hu : s.Unconsumed (x :: xs)) (he : s.events = pollEvent x :: rest) :
    ∃ t, step s = .next t ∧ s.Waits t ∧ t.Unconsumed xs ∧ t.events = rest := by
  have hi' := hi.openStep x rest
  rw [step_of_poll he]
  obtain ⟨hw, hxs⟩ | ⟨hfd, hc, hk⟩ := hu.head
  · obtain ⟨r, hexec, -⟩ := poll_waits hi' hf ht hw
    exact ⟨_, hexec, ⟨rfl, rfl, rfl, rfl⟩, hxs, rfl⟩
  · obtain ⟨r, hexec⟩ := poll_dataNack hi' ht hfd hc hk
    exact ⟨_, hexec, ⟨rfl, rfl, rfl, rfl⟩, State.unconsumed_of_shadow_zero rfl xs, rfl⟩

/-! ## The last POLL -/

/-- What the abort leaves of the active device's descriptor: the counts show how far the transaction got (R256). -/
def Device.aborted (d : Device) : Device :=
  { d with finished := true, result := .retryExhausted, state := .idle, rspend := false, genrs := false }

theorem State.dev_abort {s : State} (hslot : s.active.toNat < s.devs.length) :
    s.abort.dev s.active = (s.dev s.active).aborted :=
  s.dev_setDev_same _ hslot

/-- The transaction of `s` has been aborted in `t`. -/
structure State.Aborts (s t : State) : Prop where
  fsm : t.fsm = .idle
  busy : t.busy = false
  dev : t.dev s.active = (s.dev s.active).aborted

/-- R201: the tick that does not survive aborts, whatever the inputs. -/
theorem poll_aborts {s : State} (hi : s.Inv) (hf : s.fsm ≠ .idle) (ht : ¬ s.TickSurvives) :
    ∃ t, exec .poll s = .next t ∧ s.Aborts t ∧ t.events = s.events := by
  obtain ⟨ha, hc, hb⟩ := not_not.1 ht
  obtain ⟨r, hexec, -⟩ := poll_of_phases (pollPhases_exhausts hf ha hc hb)
  exact ⟨_, hexec, ⟨rfl, rfl, State.dev_abort (hi.activeSlot hf)⟩, rfl⟩

/-! ## The run -/

/-- The transaction stays in its state for `n` steps, and the last of them aborts it. -/
def State.AbortsAfter (s : State) (n : Nat) (rest : List Event) : Prop :=
  (∀ k < n, ∃ t, Sys2Proof.core.run k s = .next t ∧ t.fsm = s.fsm ∧ t.busy = true) ∧
    ∃ t, Sys2Proof.core.run n s = .next t ∧ s.Aborts t ∧ t.events = rest

/-- The last POLL, whatever its inputs (R201). -/
theorem State.abortsAfter_one {s : State} {x : PeriphInputs} {rest : List Event} (hi : s.Inv) (hf : s.fsm ≠ .idle)
    (ht : ¬ s.TickSurvives) (he : s.events = pollEvent x :: rest) : s.AbortsAfter 1 rest := by
  obtain ⟨t, hexec, haborts, hevents⟩ := poll_aborts (hi.openStep x rest) hf ht
  refine ⟨fun k hk => ?_, t, run_succ ((step_of_poll he).trans hexec) 0, { haborts with }, hevents⟩
  obtain rfl : k = 0 := Nat.lt_one_iff.1 hk
  exact ⟨s, rfl, rfl, hi.isBusy hf⟩

theorem State.Aborts.of_waits {s t u : State} (hw : s.Waits t) (h : t.Aborts u) : s.Aborts u := by
  obtain ⟨hfsm, hbusy, hdev⟩ := h
  rw [hw.dev, hw.active] at hdev
  exact ⟨hfsm, hbusy, hdev⟩

/-- A step on which the transaction waits, before the others. -/
theorem State.AbortsAfter.succ {s t : State} {n : Nat} {rest : List Event} (hbusy : s.busy = true)
    (hstep : step s = .next t) (hw : s.Waits t) (h : t.AbortsAfter n rest) : s.AbortsAfter (n + 1) rest := by
  obtain ⟨hstays, u, hrun, haborts, hevents⟩ := h
  refine ⟨fun k hk => ?_, u, (run_succ hstep n).trans hrun, .of_waits hw haborts, hevents⟩
  cases k with
  | zero => exact ⟨s, rfl, rfl, hbusy⟩
  | succ k =>
    obtain ⟨v, hv, hfsm, hbusy⟩ := hstays k (Nat.lt_of_succ_lt_succ hk)
    exact ⟨v, (run_succ hstep k).trans hv, hfsm.trans hw.fsm, hbusy⟩

/-- R183 from any point of the countdown: as many POLLs as the timer has ticks left. -/
theorem State.abortsAfter_ticksLeft {s : State} {xs : List PeriphInputs} {rest : List Event} (hi : s.Inv)
    (hf : s.fsm ≠ .idle) (hlen : xs.length = s.timer.ticksLeft) (hu : s.Unconsumed xs.dropLast)
    (he : s.events = xs.map pollEvent ++ rest) : s.AbortsAfter xs.length rest := by
  induction xs generalizing s with
  | nil => exact absurd hlen (Nat.ne_of_lt s.timer.ticksLeft_pos)
  | cons x xs ih =>
    have hsurvives := State.tickSurvives_iff hi hf
    rw [← hlen] at hsurvives
    cases xs with
    | nil => exact State.abortsAfter_one hi hf (fun ht => absurd (hsurvives.1 ht) (Nat.lt_irrefl 1)) he
    | cons y ys =>
      have ht : s.TickSurvives := hsurvives.2 (Nat.succ_lt_succ (Nat.succ_pos _))
      obtain ⟨t, hstep, hw, hu', he'⟩ := step_unconsumed hi hf ht hu he
      have hlen' : (y :: ys).length = t.timer.ticksLeft := by
        rw [hw.timer]
        exact Nat.succ.inj (hlen.trans (State.ticksLeft_tick hi hf ht).symm)
      have hrest := ih (stepKeepsInvariant s t hi hstep) (hw.fsm ▸ hf) hlen' hu' he'
      exact hrest.succ (hi.isBusy hf) hstep hw

/-- Settles O57: a timer just armed has RETRY_BUDGET × P' ticks left. -/
theorem unfinishedActionAbortsOnTime : Obligations.UnfinishedActionAbortsOnTime := by
  intro s xs rest hi hf harmed hlen hu he
  have hloaded := Timer.ticksLeft_of_loaded (t := s.armedTimer) hi.armedTimer_ok.2.1 rfl
  have hticks : xs.length = s.timer.ticksLeft := by
    rw [harmed, hloaded]
    exact hlen
  obtain ⟨hstays, t, hrun, haborts, hevents⟩ := State.abortsAfter_ticksLeft hi hf hticks hu he
  refine ⟨hstays, t, hrun, haborts.fsm, haborts.busy, hevents, ?_⟩
  rw [haborts.dev]
  exact ⟨rfl, rfl, rfl, rfl⟩

end Sys2Proof.Machine
end

section
/-! The ends of a command that names a device or answers an error: the test of the handle (R213), and the response words
of the errors (R85, R90). -/

namespace Sys2Proof.Machine

/-! ## The test of the handle -/

/-- R213: a handle that names no device takes the first branch. -/
theorem ite_unregistered {α : Type} {s : State} {dev : Handle} (h : ¬ dev < s.regCount) (a b : α) :
    (if !s.validHandle dev then a else b) = a := by
  rw [State.validHandle, decide_eq_false h]
  rfl

/-- R213: a handle that names a device takes the second. -/
theorem ite_registered {α : Type} {s : State} {dev : Handle} (h : dev < s.regCount) (a b : α) :
    (if !s.validHandle dev then a else b) = b := by
  rw [(s.validHandle_iff dev).2 h]
  rfl

/-! ## Responses -/

theorem finish_eq (s : State) (st : Status) (payload : BitVec 60) :
    finish s st payload = .next { s with response := some (responseWord st payload) } := rfl

/-- R86: the answer of a command that took the device it names. -/
theorem finish_handle (s : State) (dev : Handle) :
    finish s .ok (handlePayload dev) = .next { s with response := some (0x0#4 ++ (dev ++ 0#52)) } := rfl

theorem finish_zero (s : State) : finish s .ok 0 = .next { s with response := some 0x0000000000000000#64 } := rfl

theorem finish_deviceBusy (s : State) :
    finish s .deviceBusy 0 = .next { s with response := some 0x1000000000000000#64 } := rfl

theorem finish_invalidDevice (s : State) :
    finish s .invalidDevice 0 = .next { s with response := some 0x4000000000000000#64 } := rfl

theorem finish_registryFull (s : State) :
    finish s .registryFull 0 = .next { s with response := some 0x5000000000000000#64 } := rfl

theorem finish_illegalOpcode (s : State) :
    finish s .illegalOpcode 0 = .next { s with response := some 0x6000000000000000#64 } := rfl

/-- Settles O16: the five commands test the handle first. -/
theorem unregisteredHandleIsRefused : Obligations.UnregisteredHandleIsRefused := by
  intro s dev rs ns nr h
  rw [← finish_invalidDevice]
  exact ⟨ite_unregistered h _ _, ite_unregistered h _ _, ite_unregistered h _ _, ite_unregistered h _ _,
    ite_unregistered h _ _⟩

/-- Settles O17: each command tests for the busy device right after the handle. -/
theorem busyDeviceIsRefused : Obligations.BusyDeviceIsRefused := by
  intro s dev rs ns nr hreg
  rw [← finish_deviceBusy]
  exact ⟨fun hbusy => (ite_registered hreg _ _).trans (if_pos hbusy),
    fun hstate => (ite_registered hreg _ _).trans (if_pos hstate),
    fun hstate => (ite_registered hreg _ _).trans (if_pos hstate)⟩

end Sys2Proof.Machine
end

section
/-! The commands of the registry and the configuration on their way to OK: what each writes, and that the rest stays. -/

namespace Sys2Proof.Machine

/-- Settles O11: both end in a response alone. -/
theorem nopAndReservedOnlyRespond : Obligations.NopAndReservedOnlyRespond :=
  fun s => ⟨finish_zero s, fun _ => finish_illegalOpcode s⟩

/-- Settles O12: by the invariant the file has the slot at `regCount` while the registry is not full. -/
theorem registerAppendsDeviceOrRefuses : Obligations.RegisterAppendsDeviceOrRefuses := by
  intro s a w r hi
  refine ⟨fun hroom => ⟨(hi.regCount_succ hroom).2, ?_⟩, fun hfull => ?_⟩
  · exact (if_neg hroom).trans (finish_handle _ _)
  · exact (if_pos hfull).trans (finish_registryFull s)

/-- Settles O13: the device is registered and not in progress, so neither error arises. -/
theorem ackResultClearsResult : Obligations.AckResultClearsResult := by
  intro s dev hreg hstate
  exact (ite_registered hreg _ _).trans ((if_neg hstate).trans (finish_handle _ _))

/-- Settles O14: the timer's other fields are carried over. -/
theorem writePeriodWritesPeriodOnly : Obligations.WritePeriodWritesPeriodOnly := fun _ _ => finish_zero _

/-- Settles O15: the device is registered and idle, so neither error arises. -/
theorem queueRecordsRequest : Obligations.QueueRecordsRequest := by
  intro s dev rs ns nr hreg hidle
  exact (ite_registered hreg _ _).trans ((if_neg (not_not.2 hidle)).trans (finish_handle _ _))

end Sys2Proof.Machine
end

section
/-! The commands that only report: the fields of their response words (R87, R88, R95, R96). -/

namespace Sys2Proof.Machine

/-- R85, R90: with status OK the payload goes out as it is. -/
theorem responseWord_ok (payload : BitVec 60) : responseWord .ok payload = 0x0#4 ++ payload := rfl

/-- Settles O18, by the places of the fields in the payload (R87). -/
theorem isFinishedReportsResult : Obligations.IsFinishedReportsResult := by
  intro s dev hreg
  refine ⟨_, ite_registered hreg _ _, ?_⟩
  simp [responseWord_ok, finishedPayload]

/-- Settles O19, by the places of the fields in the payload (R88). -/
theorem getCountsReportsCursors : Obligations.GetCountsReportsCursors := by
  intro s dev hreg
  refine ⟨_, ite_registered hreg _ _, ?_⟩
  simp [responseWord_ok, countsPayload]

/-- `r` is an OK response that holds the STATUS view of `s`, but for EV and TO (R95). -/
structure ReportsStatus (r : Word) (s : State) : Prop where
  ok : r.extractLsb' 60 4 = 0
  active : r.extractLsb' 52 8 = s.active
  cursor : r.extractLsb' 44 8 = s.cursor
  regCount : r.extractLsb' 36 8 = s.regCount
  fsm : r.extractLsb' 33 3 = s.fsm.code
  busy : r.getLsbD 32 = s.busy
  shadow : r.extractLsb' 26 6 = s.shadow
  tStart : r.getLsbD 25 = s.timer.start
  tActive : r.getLsbD 24 = s.timer.active
  tExpired : r.getLsbD 23 = s.timer.expired
  tExhausted : r.getLsbD 22 = s.timer.exhausted
  low : r.extractLsb' 0 18 = 0

/-- Every register at its place in the view (R95). -/
theorem statusView_reports (s : State) (ev : Option Signal) (b : Bool) :
    ReportsStatus (responseWord .ok (s.statusView ev b)) s := by
  constructor <;> simp [responseWord_ok, State.statusView]

/-- Settles O21: the STATUS view with no signal and no expiry. -/
theorem readStatusReportsRegisters : Obligations.ReadStatusReportsRegisters := by
  intro s
  have h := statusView_reports s none false
  exact ⟨_, finish_eq _ _ _, h.ok, h.active, h.cursor, h.regCount, h.fsm, h.busy, h.shadow, h.tStart, h.tActive,
    h.tExpired, h.tExhausted, statusView_ev _ _ _, statusView_to _ _ _, h.low⟩

/-- Settles O22, by the places of the fields in the view (R96). -/
theorem readTimerReportsTimer : Obligations.ReadTimerReportsTimer := by
  intro s
  refine ⟨_, finish_eq _ _ _, ?_⟩
  simp [responseWord_ok, State.timerView]

end Sys2Proof.Machine
end

section
/-! NextCursor and the scheduler: the first slot in cyclic order that passes (R198, R212). -/

namespace Sys2Proof.Machine

/-- A slot taken modulo the registry's size fits a handle. -/
theorem State.toNat_slot {s : State} {k : Nat} (h : 0 < s.regCount.toNat) :
    (BitVec.ofNat 8 (k % s.regCount.toNat)).toNat = k % s.regCount.toNat :=
  Nat.mod_eq_of_lt ((Nat.mod_lt k h).trans s.regCount.isLt)

theorem State.isRequested_iff (s : State) (j : Nat) : s.isRequested j = true ↔ (s.devAt j).state = .requested :=
  decide_eq_true_iff

/-- The first step of a range at which `p` holds is where the search stops. -/
theorem find?_range'_of_first {p : Nat → Bool} {a n k : Nat} (hk : p k = true) (hle : a ≤ k) (hlt : k < a + n)
    (hfirst : ∀ i, a ≤ i → i < k → ¬ p i = true) : (List.range' a n).find? p = some k := by
  rw [List.find?_range'_eq_some]
  refine ⟨hk, List.mem_range'_1.2 ⟨hle, hlt⟩, fun i hi hik => ?_⟩
  rw [Bool.not_eq_true', Bool.eq_false_iff]
  exact hfirst i hi hik

/-- Settles O31: the search over the slots after `a` stops at the first that is requested, or at none. -/
theorem nextCursorFindsPendingWork : Obligations.NextCursorFindsPendingWork := by
  intro s a hn
  have hpos : 0 < s.regCount.toNat := (BitVec.pos_iff_ne_zero _).2 hn
  refine ⟨fun k hk1 hkn hreq hfirst => ?_, fun hnone => ?_⟩
  · have hfind : (List.range' 1 s.regCount.toNat).find?
        (fun k => s.isRequested ((a.toNat + k) % s.regCount.toNat)) = some k :=
      find?_range'_of_first ((s.isRequested_iff _).2 hreq) hk1 (by omega)
        fun i hi hik h => hfirst i hi hik ((s.isRequested_iff _).1 h)
    simp only [State.nextCursor, hfind]
    exact State.toNat_slot hpos
  · have hfind : (List.range' 1 s.regCount.toNat).find?
        (fun k => s.isRequested ((a.toNat + k) % s.regCount.toNat)) = none :=
      List.find?_eq_none.2 fun k _ h => hnone _ (Nat.mod_lt _ hpos) ((s.isRequested_iff _).1 h)
    simp only [State.nextCursor, hfind]
    exact State.toNat_slot hpos

/-- R198: the scheduler names the first eligible slot from `cursor` on. -/
theorem State.scheduled_of_first {s : State} {k : Nat} {j : Handle} (hk : k < s.regCount.toNat)
    (hj : j.toNat = (s.cursor.toNat + k) % s.regCount.toNat) (hmay : s.MayStart j.toNat)
    (hfirst : ∀ i < k, ¬ s.MayStart ((s.cursor.toNat + i) % s.regCount.toNat)) : s.scheduled = some j := by
  rw [hj] at hmay
  have hfind : (List.range' 0 s.regCount.toNat).find?
      (fun k => s.eligible ((s.cursor.toNat + k) % s.regCount.toNat)) = some k :=
    find?_range'_of_first ((s.eligible_iff _).2 hmay) (Nat.zero_le k) (by omega)
      fun i _ hik h => hfirst i hik ((s.eligible_iff _).1 h)
  have hslot : BitVec.ofNat 8 ((s.cursor.toNat + k) % s.regCount.toNat) = j :=
    BitVec.eq_of_toNat_eq ((State.toNat_slot (Nat.zero_lt_of_lt hk)).trans hj.symm)
  simp only [State.scheduled, hfind, hslot]

/-- Phase S with a device to start (R198). -/
theorem pollPhases_starts {s : State} {j : Handle} (hf : s.fsm = .idle) (hs : s.scheduled = some j) :
    pollPhases s =
      { state := ({ s with cursor := j } : State).startTransfer j, ev := some .beginTransfer, timeout := false } := by
  simp only [pollPhases, if_pos hf, schedulePhase, hs]

/-- Settles O25: the device the scheduler names, started by R127 or R128. -/
theorem pollStartsFirstEligibleDevice : Obligations.PollStartsFirstEligibleDevice := by
  intro s k j hi hf hk hj hmay hfirst
  have hs := State.scheduled_of_first hk hj hmay hfirst
  obtain ⟨r, hexec, hev, hto⟩ := poll_of_phases (pollPhases_starts hf hs)
  refine ⟨r, hev, hto, fun hr => ?_, fun hr => ?_⟩
  · rw [hexec, State.startTransfer_start (s := { s with cursor := j }) hr (hi.inactive hf) (hi.shadowIdle hf)]
    rfl
  · rw [hexec, State.startTransfer_skip (s := { s with cursor := j }) hr (hi.inactive hf) (hi.shadowIdle hf),
      Device.addrByte_eq]
    rfl

end Sys2Proof.Machine
end

section
/-! POLL outside Idle, by its tick: time left, and the budget exhausted (R178, R200, R201). -/

namespace Sys2Proof.Machine

/-- Settles O28: the tick is R178's first case. -/
theorem pollCountsDown : Obligations.PollCountsDown := by
  intro s hi hf hw hc
  have hpoll := poll_waits hi hf (fun h => BitVec.not_lt.2 h.2.1 hc) hw
  rwa [Timer.tick_counts (hi.activeTimer hf) hc] at hpoll

/-- Settles O30: the tick is R178's last case, after which the abort is all that happens (R256). -/
theorem pollAbortsOnExhaustion : Obligations.PollAbortsOnExhaustion := by
  intro s hi hf hc hb
  exact poll_of_phases (pollPhases_exhausts hf (hi.activeTimer hf) hc hb)

end Sys2Proof.Machine
end

section
/-! That every command answers, and that POLL reports the state it leaves and its expiry (R191, R202, R203). -/

namespace Sys2Proof.Machine

/-! ## Every command answers -/

/-- The outcome is a next state with a response word. -/
def Responds (o : Host.Outcome State Fault Refusal) : Prop := ∃ (t : State) (r : Word), o = .next t ∧ t.response = some r

theorem Responds.finish {s : State} {st : Status} {payload : BitVec 60} : Responds (finish s st payload) :=
  ⟨_, _, finish_eq s st payload, rfl⟩

theorem Responds.ite {c : Prop} [Decidable c] {a b : Host.Outcome State Fault Refusal} (ha : Responds a)
    (hb : Responds b) : Responds (if c then a else b) := by
  split
  · exact ha
  · exact hb

/-- Every branch of every command ends in `finish` (R15, R191). -/
theorem exec_responds (i : Instr) (s : State) : Responds (exec i s) := by
  cases i with
  | nop | poll | isBusIdle | writePeriod | readStatus | readTimer | reserved => exact .finish
  | register | isFinished | getCounts => exact .ite .finish .finish
  | beginTransfer | queue | ackResult => exact .ite .finish (.ite .finish .finish)

/-- Settles O44: a step without a command has nothing that could stop it. -/
theorem everyCommandResponds : Obligations.EveryCommandResponds := by
  refine ⟨exec_responds, fun s => ?_⟩
  unfold step
  split
  next => exact ⟨_, rfl⟩
  next w x rest _ =>
    obtain ⟨t, -, hexec, -⟩ := exec_responds (decode w) (s.openStep x rest)
    exact ⟨t, hexec⟩
  next => exact ⟨_, rfl⟩
  next => exact ⟨_, rfl⟩

/-! ## TO -/

/-- TO of a tick: a running countdown reaches its end (R178, R179). -/
theorem Timer.tick_timeout_iff (t : Timer) : t.tick.timeout = true ↔ t.active = true ∧ t.count ≤ 1 := by
  by_cases ha : t.active = true
  · by_cases hc : 1 < t.count
    · rw [Timer.tick_counts ha hc]
      exact iff_of_false nofun fun h => BitVec.not_lt.2 h.2 hc
    · have hlast : t.count ≤ 1 := BitVec.not_lt.1 hc
      refine iff_of_true ?_ ⟨ha, hlast⟩
      by_cases hb : t.retryBudget = 1
      · rw [Timer.tick_exhausts ha hlast hb]
      · rw [Timer.tick_expires ha hlast hb]
  · rw [Timer.tick, if_neg ha]
    exact iff_of_false nofun fun h => ha h.1

theorem schedulePhase_timeout (s : State) : (schedulePhase s).timeout = false := by
  unfold schedulePhase
  split <;> rfl

theorem adapterPhase_timeout (s : State) (b : Bool) : (adapterPhase s b).timeout = b := by
  unfold adapterPhase
  split <;> rfl

/-- Whatever follows the tick, TO is the tick's (R202). -/
theorem busyPhases_timeout (s : State) : (busyPhases s).timeout = s.timer.tick.timeout := by
  simp only [busyPhases]
  split
  · rfl
  · exact adapterPhase_timeout _ _

/-- The timer ticks outside Idle only (R198, R200). -/
theorem pollPhases_timeout_iff (s : State) :
    (pollPhases s).timeout = true ↔ s.fsm ≠ .idle ∧ s.timer.active = true ∧ s.timer.count ≤ 1 := by
  unfold pollPhases
  split
  next hf =>
    rw [schedulePhase_timeout]
    exact iff_of_false nofun fun h => h.1 hf
  next hf =>
    rw [busyPhases_timeout, Timer.tick_timeout_iff]
    exact (and_iff_right hf).symm

/-- Settles O45: the view is taken of the state that the phases leave, and a response is no register. -/
theorem pollReportsStateAfter : Obligations.PollReportsStateAfter := by
  intro s
  have h := statusView_reports (pollPhases s).state (pollPhases s).ev (pollPhases s).timeout
  refine ⟨_, _, finish_eq _ _ _, rfl, h.ok, h.active, h.cursor, h.regCount, h.fsm, h.busy, h.shadow, h.tStart, h.tActive,
    h.tExpired, h.tExhausted, h.low, ?_⟩
  rw [statusView_to]
  exact pollPhases_timeout_iff s

end Sys2Proof.Machine
end

section
/-! What a command may send to the peripheral (R232, R233, R240), in every state. -/

namespace Sys2Proof.Machine

/-- A peripheral command of the kinds a step produces: DISABLE_RX is none of them (R233), and only SEND_ACK and
TRANSMIT carry data (R232). -/
def PeriphCmd.Produced (c : PeriphCmd) : Prop :=
  c.code ≠ .disableRx ∧ (c.code ≠ .sendAck → c.code ≠ .transmit → c.data = 0)

theorem PeriphCmd.Produced.transmit (data : Byte) : PeriphCmd.Produced ⟨.transmit, data⟩ :=
  ⟨nofun, fun _ h => absurd rfl h⟩

theorem PeriphCmd.Produced.sendAck (data : Byte) : PeriphCmd.Produced ⟨.sendAck, data⟩ :=
  ⟨nofun, fun h => absurd rfl h⟩

theorem PeriphCmd.Produced.noData {code : PeriphCode} (h : code ≠ .disableRx) : PeriphCmd.Produced ⟨code, 0⟩ :=
  ⟨h, fun _ _ => rfl⟩

/-- The commands one step may append, started in the transaction state `f`. -/
inductive Emission (f : FsmState) : List PeriphCmd → Prop where
  | silent : Emission f []
  | one {c : PeriphCmd} (hc : c.Produced) : Emission f [c]
  /-- R141: the only step that appends two. -/
  | received (hf : f = .readData) (data : Byte) : Emission f [⟨.readRx, 0⟩, ⟨.sendAck, data⟩]

/-- Going from `s` to `t` appends the commands of one step. -/
def Emits (s t : State) : Prop := ∃ l : List PeriphCmd, t.periphOut = s.periphOut ++ l ∧ Emission s.fsm l

namespace Emits

theorem silent {s t : State} (h : t.periphOut = s.periphOut) : Emits s t :=
  ⟨[], h.trans (List.append_nil _).symm, .silent⟩

theorem ite {s a b : State} {c : Prop} [Decidable c] (ha : Emits s a) (hb : Emits s b) : Emits s (if c then a else b) := by
  split
  · exact ha
  · exact hb

/-- One command is issued from a state `u` in which the step has sent nothing so far. -/
theorem issue {s u : State} {code : PeriphCode} {data : Byte} (hu : u.periphOut = s.periphOut)
    (hc : PeriphCmd.Produced ⟨code, data⟩) : Emits s (u.issue code data) :=
  ⟨_, (u.issue_periphOut code data).trans (congrArg (· ++ _) hu), .one hc⟩

theorem proceed {s u : State} {code : PeriphCode} {data : Byte} (next : FsmState) (hu : u.periphOut = s.periphOut)
    (hc : PeriphCmd.Produced ⟨code, data⟩) : Emits s (u.proceed code data next) :=
  issue (u := u.disarm) hu hc

theorem endWrite {s u : State} (hu : u.periphOut = s.periphOut) (genrs : Bool) : Emits s (u.endWrite genrs) :=
  ite (proceed _ hu (.noData nofun)) (proceed _ hu (.noData nofun))

/-- Either form of StartTransfer issues one command (R127, R128). -/
theorem startTransfer {s u : State} (hu : u.periphOut = s.periphOut) (h : Handle) : Emits s (u.startTransfer h) :=
  ite (issue hu (.transmit _)) (issue hu (.noData nofun))

end Emits

/-! ## The transitions -/

theorem onWriteAddress_emits (s : State) : Emits s (onWriteAddress s) :=
  .ite
    (.ite (.proceed _ rfl (.noData nofun)) (.ite (.proceed _ rfl (.transmit _)) (.endWrite rfl _)))
    (.proceed _ rfl (.noData nofun))

theorem onWriteData_emits (s : State) : Emits s (onWriteData s) :=
  .ite (.ite (.proceed _ rfl (.transmit _)) (.ite (.endWrite rfl _) (.silent rfl))) (.silent rfl)

theorem onReadDataBusIdle_emits (s : State) : Emits s (onReadDataBusIdle s) :=
  .ite (.proceed _ rfl (.noData nofun)) (.ite (.proceed _ rfl (.noData nofun)) (.silent rfl))

theorem onDataReceived_emits {s : State} (hf : s.fsm = .readData) : Emits s (onDataReceived s) :=
  ⟨_, List.append_assoc s.periphOut _ _, .received hf _⟩

/-- Every transition out of a state with an action outstanding (R129 to R143). -/
theorem onBusIdle_emits (s : State) : Emits s (onBusIdle s) := by
  unfold onBusIdle
  split
  next => exact .silent rfl
  next => exact .proceed _ rfl (.transmit _)
  next => exact onWriteAddress_emits s
  next => exact onWriteData_emits s
  next => exact .silent rfl
  next => exact .silent rfl
  next => exact onReadDataBusIdle_emits s

theorem transition_emits (sig : Signal) (s : State) : Emits s (transition sig s) := by
  cases sig with
  | busIdle => exact onBusIdle_emits s
  | dataReceived =>
    simp only [transition]
    split
    next hf => exact onDataReceived_emits hf
    next => exact .silent rfl
  | retryExhausted => exact .ite (.silent rfl) (.silent rfl)
  | beginTransfer | ackReceived | timeout => exact .silent rfl

/-! ## The commands of the host -/

theorem schedulePhase_emits (s : State) : Emits s (schedulePhase s).state := by
  unfold schedulePhase
  split
  · exact .startTransfer rfl _
  · exact .silent rfl

theorem adapterPhase_emits (s : State) (timeout : Bool) : Emits s (adapterPhase s timeout).state := by
  unfold adapterPhase
  split
  next b _ => exact transition_emits (completionSignal b) { s with shadow := clearBit s.shadow b }
  next => exact .silent rfl

theorem busyPhases_emits (s : State) : Emits s (busyPhases s).state := by
  simp only [busyPhases]
  split
  · exact transition_emits .retryExhausted { s with timer := s.timer.tick.timer }
  · exact adapterPhase_emits { s with timer := s.timer.tick.timer } _

theorem pollPhases_emits (s : State) : Emits s (pollPhases s).state := by
  unfold pollPhases
  split
  · exact schedulePhase_emits s
  · exact busyPhases_emits s

/-- POLL appends what one of its phases does: StartTransfer, or the transition the adapter delivers. -/
theorem execPoll_emits {s t : State} (h : execPoll s = .next t) : Emits s t :=
  respond_eq_of_finish h ▸ pollPhases_emits s

theorem execBegin_emits {s t : State} {dev : Handle} {rs : Bool} {nsend nread : Half}
    (h : execBegin dev rs nsend nread s = .next t) : Emits s t := by
  unfold execBegin at h
  split at h
  · exact respond_eq_of_finish h ▸ .silent rfl
  · split at h
    · exact respond_eq_of_finish h ▸ .silent rfl
    · rw [← respond_eq_of_finish h]
      exact Emits.startTransfer (u := s.setDev dev _) rfl dev

/-- BEGIN and POLL append the commands of one step, every other command none. -/
theorem exec_emits {i : Instr} {s t : State} (h : exec i s = .next t) :
    ∃ l : List PeriphCmd, t.periphOut = s.periphOut ++ l ∧ Emission s.fsm l ∧ (i.op ≠ 0x2 → i.op ≠ 0x4 → l = []) := by
  obtain rfl | ⟨dev, rs, nsend, nread, rfl⟩ | hquiet := exec_cases h
  · obtain ⟨l, hout, hl⟩ := execPoll_emits h
    exact ⟨l, hout, hl, fun _ hop => absurd rfl hop⟩
  · obtain ⟨l, hout, hl⟩ := execBegin_emits h
    exact ⟨l, hout, hl, fun hop => absurd rfl hop⟩
  · exact ⟨[], hquiet.silent.trans (List.append_nil _).symm, .silent, fun _ _ => rfl⟩

/-! ## What an emission looks like -/

theorem Emission.length_le {f : FsmState} {l : List PeriphCmd} (h : Emission f l) : l.length ≤ 2 := by
  cases h <;> simp

theorem Emission.eq_of_length_two {f : FsmState} {l : List PeriphCmd} (h : Emission f l) (hl : l.length = 2) :
    f = .readData ∧ l.map PeriphCmd.code = [.readRx, .sendAck] := by
  cases h with
  | silent | one => exact absurd hl (by simp)
  | received hf data => exact ⟨hf, rfl⟩

theorem Emission.produced {f : FsmState} {l : List PeriphCmd} (h : Emission f l) : ∀ c ∈ l, c.Produced := by
  cases h with
  | silent => exact List.forall_mem_nil _
  | one hc => exact List.forall_mem_singleton.2 hc
  | received hf data =>
    exact List.forall_mem_cons.2 ⟨.noData nofun, List.forall_mem_singleton.2 (.sendAck data)⟩

/-- Settles O47: in every state, the invariant or not. -/
theorem commandsEmittedPerStep : Obligations.CommandsEmittedPerStep := by
  intro i s t h
  obtain ⟨l, hout, hl, hquiet⟩ := exec_emits h
  exact ⟨l, hout, hl.length_le, hquiet, hl.eq_of_length_two, hl.produced⟩

end Sys2Proof.Machine
end

section
/-! The peripheral inputs and the commands that do not read them (R231). -/

namespace Sys2Proof.Machine

/-- A branch on a condition that `f` leaves, when `f` commutes with each side where it is taken. -/
theorem ite_commutes {α β : Type} (f : α → β) {c : Prop} [Decidable c] {a b : α} {a' b' : β} (ha : c → a' = f a)
    (hb : ¬ c → b' = f b) : (if c then a' else b') = f (if c then a else b) :=
  (ite_congr rfl ha hb).trans (apply_ite f c a b).symm

theorem State.ite_withInputs {x : PeriphInputs} {c : Prop} [Decidable c] {a b a' b' : State} (ha : a' = a.withInputs x)
    (hb : b' = b.withInputs x) : (if c then a' else b') = (if c then a else b).withInputs x :=
  ite_commutes (State.withInputs · x) (fun _ => ha) (fun _ => hb)

theorem ite_outcomeWithInputs {x : PeriphInputs} {c : Prop} [Decidable c] {a b a' b' : Host.Outcome State Fault Refusal}
    (ha : a' = outcomeWithInputs x a) (hb : b' = outcomeWithInputs x b) :
    (if c then a' else b') = outcomeWithInputs x (if c then a else b) :=
  ite_commutes (outcomeWithInputs x) (fun _ => ha) (fun _ => hb)

@[simp] theorem State.withInputs_inputs (s : State) (x : PeriphInputs) : (s.withInputs x).inputs = x := rfl
@[simp] theorem State.withInputs_fsm (s : State) (x : PeriphInputs) : (s.withInputs x).fsm = s.fsm := rfl
@[simp] theorem State.withInputs_shadow (s : State) (x : PeriphInputs) : (s.withInputs x).shadow = s.shadow := rfl
@[simp] theorem State.withInputs_scheduled (s : State) (x : PeriphInputs) :
    (s.withInputs x).scheduled = s.scheduled := rfl

theorem State.startTransfer_withInputs (s : State) (x : PeriphInputs) (h : Handle) :
    (s.withInputs x).startTransfer h = (s.startTransfer h).withInputs x :=
  State.ite_withInputs rfl rfl

/-- Settles O52: only the start of a transfer is more than a record update. -/
theorem onlyPollReadsInputs : Obligations.OnlyPollReadsInputs := by
  intro i s x hpoll
  cases i with
  | poll => exact absurd rfl hpoll
  | nop | isBusIdle | writePeriod | readStatus | readTimer | reserved => rfl
  | register | isFinished | getCounts => exact ite_outcomeWithInputs rfl rfl
  | queue | ackResult => exact ite_outcomeWithInputs rfl (ite_outcomeWithInputs rfl rfl)
  | beginTransfer dev rs nsend nread =>
    have hstart := State.startTransfer_withInputs (s.setDev dev ((s.dev dev).initRequest nsend nread rs)) x dev
    exact ite_outcomeWithInputs rfl (ite_outcomeWithInputs rfl (congrArg (finish · .ok (handlePayload dev)) hstart))

end Sys2Proof.Machine
end

section
/-! POLL under other peripheral inputs (R161, R168, R241 to R244): each of its operations commutes with the change of
inputs, if the inputs it reads are the same. -/

namespace Sys2Proof.Machine

/-! ## The transitions -/

/-- In the transaction states that read ACKSTAT or RXDATA, `x` shows what `s` has sampled (R243, R244). -/
structure State.SameData (s : State) (x : PeriphInputs) : Prop where
  ackstat : s.fsm = .writeAddress ∨ s.fsm = .writeData → x.ackstat = s.inputs.ackstat
  rxdata : s.fsm = .readData → x.rxdata = s.inputs.rxdata

theorem State.endWrite_withInputs (s : State) (x : PeriphInputs) (genrs : Bool) :
    (s.withInputs x).endWrite genrs = (s.endWrite genrs).withInputs x :=
  State.ite_withInputs rfl rfl

theorem onWriteAddress_withInputs {s : State} {x : PeriphInputs} (hk : x.ackstat = s.inputs.ackstat) :
    onWriteAddress (s.withInputs x) = (onWriteAddress s).withInputs x := by
  simp only [onWriteAddress, State.withInputs_inputs, hk]
  exact State.ite_withInputs (State.ite_withInputs rfl (State.ite_withInputs rfl (s.endWrite_withInputs x _))) rfl

theorem onWriteData_withInputs {s : State} {x : PeriphInputs} (hk : x.ackstat = s.inputs.ackstat) :
    onWriteData (s.withInputs x) = (onWriteData s).withInputs x := by
  simp only [onWriteData, State.withInputs_inputs, hk]
  exact State.ite_withInputs
    (State.ite_withInputs rfl (State.ite_withInputs (s.countSent.endWrite_withInputs x _) rfl)) rfl

theorem onReadDataBusIdle_withInputs (s : State) (x : PeriphInputs) :
    onReadDataBusIdle (s.withInputs x) = (onReadDataBusIdle s).withInputs x :=
  State.ite_withInputs rfl (State.ite_withInputs rfl rfl)

theorem onDataReceived_withInputs {s : State} {x : PeriphInputs} (hrx : x.rxdata = s.inputs.rxdata) :
    onDataReceived (s.withInputs x) = (onDataReceived s).withInputs x := by
  simp only [onDataReceived, State.withInputs_inputs, hrx]
  rfl

theorem onBusIdle_withInputs {s : State} {x : PeriphInputs} (h : s.SameData x) :
    onBusIdle (s.withInputs x) = (onBusIdle s).withInputs x := by
  simp only [onBusIdle, State.withInputs_fsm]
  cases hf : s.fsm with
  | writeAddress => exact onWriteAddress_withInputs (h.ackstat (.inl hf))
  | writeData => exact onWriteData_withInputs (h.ackstat (.inr hf))
  | readData => exact onReadDataBusIdle_withInputs s x
  | idle | start | restart | stop => rfl

/-- R243, R244: no signal's transition reads an input but these. -/
theorem transition_withInputs {s : State} {x : PeriphInputs} (h : s.SameData x) (sig : Signal) :
    transition sig (s.withInputs x) = (transition sig s).withInputs x := by
  cases sig with
  | busIdle => exact onBusIdle_withInputs h
  | dataReceived =>
    exact ite_commutes (State.withInputs · x) (fun hf => onDataReceived_withInputs (h.rxdata hf)) (fun _ => rfl)
  | retryExhausted => exact State.ite_withInputs rfl rfl
  | beginTransfer | ackReceived | timeout => rfl

/-! ## The adapter -/

/-- For the actions outstanding in `shadow` the inputs `x` and `y` show the same (R161 to R164, R168). -/
structure SameCompletions (shadow : BitVec 6) (x y : PeriphInputs) : Prop where
  live : x.live &&& shadow = y.live &&& shadow
  trf : shadow.getLsbD 1 = true → x.trf = y.trf
  rda : shadow.getLsbD 0 = true → x.rda = y.rda

theorem SameCompletions.live_bit {shadow : BitVec 6} {x y : PeriphInputs} (h : SameCompletions shadow x y) {b : Nat}
    (hb : shadow.getLsbD b = true) : x.live.getLsbD b = y.live.getLsbD b := by
  have hbit := congrArg (BitVec.getLsbD · b) h.live
  simpa only [BitVec.getLsbD_and, hb, Bool.and_true] using hbit

theorem SameCompletions.symm {shadow : BitVec 6} {x y : PeriphInputs} (h : SameCompletions shadow x y) :
    SameCompletions shadow y x :=
  ⟨h.live.symm, fun hb => (h.trf hb).symm, fun hb => (h.rda hb).symm⟩

/-- The same actions complete. -/
theorem SameCompletions.completes {shadow : BitVec 6} {x y : PeriphInputs} (h : SameCompletions shadow x y) {b : Nat}
    (hb : actionCompletes shadow x b) : actionCompletes shadow y b := by
  obtain ⟨hout, hlive, htrf, hrda⟩ := hb
  refine ⟨hout, h.live_bit hout ▸ hlive, ?_, ?_⟩
  · rintro rfl
    exact h.trf hout ▸ htrf rfl
  · rintro rfl
    exact h.rda hout ▸ hrda rfl

/-- The adapter picks the same action (R165). -/
theorem SameCompletions.firingBit_eq {shadow : BitVec 6} {x y : PeriphInputs} (h : SameCompletions shadow x y) :
    firingBit shadow x = firingBit shadow y := by
  have hfires : fires shadow x = fires shadow y := funext fun b => by
    rw [Bool.eq_iff_iff, fires_iff, fires_iff]
    exact ⟨h.completes, h.symm.completes⟩
  rw [firingBit, firingBit, hfires]

/-! ## POLL -/

/-- What the phases of a POLL leave, with other peripheral inputs in its state. -/
def PollResult.withInputs (p : PollResult) (x : PeriphInputs) : PollResult := { p with state := p.state.withInputs x }

theorem schedulePhase_withInputs (s : State) (x : PeriphInputs) :
    schedulePhase (s.withInputs x) = (schedulePhase s).withInputs x := by
  simp only [schedulePhase, State.withInputs_scheduled]
  cases s.scheduled with
  | none => rfl
  | some j =>
    have hstart := State.startTransfer_withInputs { s with cursor := j } x j
    exact congrArg (PollResult.mk · (some .beginTransfer) false) hstart

theorem adapterPhase_withInputs {s : State} {x : PeriphInputs} (hc : SameCompletions s.shadow x s.inputs)
    (hd : s.SameData x) (timeout : Bool) :
    adapterPhase (s.withInputs x) timeout = (adapterPhase s timeout).withInputs x := by
  simp only [adapterPhase, State.withInputs_shadow, State.withInputs_inputs, hc.firingBit_eq]
  cases firingBit s.shadow s.inputs with
  | none => rfl
  | some b =>
    have hmove := transition_withInputs (s := { s with shadow := clearBit s.shadow b }) ⟨hd.ackstat, hd.rxdata⟩
      (completionSignal b)
    exact congrArg (PollResult.mk · (some (completionSignal b)) timeout) hmove

theorem busyPhases_withInputs {s : State} {x : PeriphInputs} (hc : SameCompletions s.shadow x s.inputs)
    (hd : s.SameData x) : busyPhases (s.withInputs x) = (busyPhases s).withInputs x := by
  have hd' : ({ s with timer := s.timer.tick.timer } : State).SameData x := ⟨hd.ackstat, hd.rxdata⟩
  have habort := transition_withInputs hd' .retryExhausted
  exact ite_commutes (PollResult.withInputs · x)
    (fun _ => congrArg (PollResult.mk · (some .retryExhausted) s.timer.tick.timeout) habort)
    (fun _ => adapterPhase_withInputs (s := { s with timer := s.timer.tick.timer }) hc hd' s.timer.tick.timeout)

/-- The response of POLL holds no input (R95). -/
theorem exec_poll_withInputs {s : State} {x : PeriphInputs}
    (h : pollPhases (s.withInputs x) = (pollPhases s).withInputs x) :
    exec .poll (s.withInputs x) = outcomeWithInputs x (exec .poll s) := by
  simp only [exec, execPoll, h]
  rfl

/-- Settles O53: Idle reads no input; elsewhere the adapter finds the same completed action, and its transition the same
data. -/
theorem pollReadsOnlyNamedInputs : Obligations.PollReadsOnlyNamedInputs := by
  intro s x hlive htrf hrda hack hrx
  exact exec_poll_withInputs <| ite_commutes (PollResult.withInputs · x) (fun _ => schedulePhase_withInputs s x)
    (fun hf => busyPhases_withInputs ⟨hlive hf, htrf hf, hrda hf⟩ ⟨hack, hrx⟩)

end Sys2Proof.Machine
end

section
/-! What a command cannot disturb: nothing happens without one (R268), and one that answers with an error has changed
nothing (R251). -/

namespace Sys2Proof.Machine

/-- Settles O7: the step looks at the coming events first. -/
theorem withoutEventNothingHappens : Obligations.WithoutEventNothingHappens := by
  intro s h
  simp only [step, h]

/-! ## Errors -/

/-- R85: the status field of an OK response. -/
theorem responseWord_ok_status (payload : BitVec 60) : (responseWord .ok payload).extractLsb' 60 4 = 0 := by
  simp [responseWord_ok]

/-- R90: an error carries no payload. -/
theorem responseWord_error_payload {st : Status} (h : st ≠ .ok) (payload : BitVec 60) :
    (responseWord st payload).extractLsb' 0 60 = 0 := by
  simp [responseWord, h]

/-- The command started in `s` answers OK, or it answers from `s` as it found it. -/
def OkOrUnchanged (s : State) (o : Host.Outcome State Fault Refusal) : Prop :=
  (∃ (u : State) (payload : BitVec 60), o = finish u .ok payload) ∨
    ∃ (st : Status) (payload : BitVec 60), o = finish s st payload

namespace OkOrUnchanged

theorem ok (s u : State) (payload : BitVec 60) : OkOrUnchanged s (finish u .ok payload) := .inl ⟨u, payload, rfl⟩

theorem unchanged (s : State) (st : Status) (payload : BitVec 60) : OkOrUnchanged s (finish s st payload) :=
  .inr ⟨st, payload, rfl⟩

theorem ite {s : State} {a b : Host.Outcome State Fault Refusal} {c : Prop} [Decidable c] (ha : OkOrUnchanged s a)
    (hb : OkOrUnchanged s b) : OkOrUnchanged s (if c then a else b) := by
  split
  · exact ha
  · exact hb

end OkOrUnchanged

/-- R251: every command makes its tests before it writes anything. -/
theorem exec_okOrUnchanged (i : Instr) (s : State) : OkOrUnchanged s (exec i s) := by
  cases i with
  | nop | isBusIdle | readStatus | readTimer | poll | writePeriod => exact .ok s _ _
  | reserved => exact .unchanged s _ _
  | register | isFinished | getCounts => exact .ite (.unchanged s _ _) (.ok s _ _)
  | beginTransfer | queue | ackResult => exact .ite (.unchanged s _ _) (.ite (.unchanged s _ _) (.ok s _ _))

/-- Settles O46: a status other than OK leaves only the answer from the state as it was. -/
theorem errorResponseChangesNothing : Obligations.ErrorResponseChangesNothing := by
  intro i s t r h hr herror
  obtain ⟨u, payload, ho⟩ | ⟨st, payload, ho⟩ := exec_okOrUnchanged i s
  · obtain rfl := respond_eq_of_finish (ho.symm.trans h)
    obtain rfl := Option.some.inj hr
    exact absurd (responseWord_ok_status payload) herror
  · obtain rfl := respond_eq_of_finish (ho.symm.trans h)
    obtain rfl := Option.some.inj hr
    have hst : st ≠ .ok := by
      rintro rfl
      exact herror (responseWord_ok_status payload)
    exact ⟨rfl, responseWord_error_payload hst payload⟩

end Sys2Proof.Machine
end

section
/-! The devices a command is not about (R258, R259): each move writes one descriptor at most. -/

namespace Sys2Proof.Machine

/-- The transaction is that of the device active after the move. -/
theorem TransactionMove.otherDevices {s t : State} (h : TransactionMove s t) {j : Nat} (hj : j ≠ t.active.toNat) :
    t.devAt j = s.devAt j := by
  cases h with
  | responds => rfl
  | inFlight => exact getD_set_ne _ _ hj
  | ended => exact getD_set_ne _ _ hj

/-- BEGIN starts the device it names, or none. -/
theorem begin_otherDevices {s t : State} {dev : Handle} {rs : Bool} {nsend nread : Half} (hi : s.Inv)
    (h : exec (.beginTransfer dev rs nsend nread) s = .next t) {j : Nat} (hj : j ≠ dev.toNat) :
    t.devAt j = s.devAt j := by
  obtain ⟨r, rfl⟩ | ⟨-, -, r, d, f, shadow, c, rfl, -⟩ := begin_inv hi h
  · rfl
  · exact getD_set_ne _ _ hj

/-- REGISTER writes a slot past the registered ones; QUEUE and ACK_RESULT write the device they name. -/
theorem QuietMove.otherDevices {i : Instr} {s t : State} (h : QuietMove s i t) {j : Nat} (hj : j < s.regCount.toNat)
    (hne : ∀ h, touchedDevice i t = some h → j ≠ h.toNat) : t.devAt j = s.devAt j := by
  cases h with
  | responds | periodWritten => rfl
  | registered => exact getD_set_ne _ _ (Nat.ne_of_lt hj)
  | queued dev | acked dev => exact getD_set_ne _ _ (hne dev rfl)

/-- Settles O51, by what the command's move writes. -/
theorem otherDevicesUntouched : Obligations.OtherDevicesUntouched := by
  intro i s t hi h j hj hne
  obtain rfl | ⟨dev, rs, nsend, nread, rfl⟩ | hquiet := exec_cases h
  · exact (poll_move hi h).otherDevices (hne t.active rfl)
  · exact begin_otherDevices hi h (hne dev rfl)
  · exact hquiet.otherDevices hj hne

end Sys2Proof.Machine
end

section
/-! The scheduler's search in full: it names nothing exactly where nothing may start (R198, R199, R301). -/

namespace Sys2Proof.Machine

/-- In a settled state the scheduler names no device. -/
theorem State.Settled.scheduled {s : State} (h : s.Settled) : s.scheduled = none := by
  cases hs : s.scheduled with
  | none => rfl
  | some j =>
    obtain ⟨hreg, heligible⟩ := State.scheduled_spec hs
    exact absurd ((s.eligible_iff _).1 heligible) (h.2 j.toNat hreg)

/-- The cyclic search from any registered slot comes past every other. -/
theorem exists_cyclic_step {n c j : Nat} (hc : c < n) (hj : j < n) : ∃ k < n, (c + k) % n = j := by
  by_cases hle : c ≤ j
  · refine ⟨j - c, by omega, ?_⟩
    rw [Nat.add_sub_cancel' hle, Nat.mod_eq_of_lt hj]
  · refine ⟨j + n - c, by omega, ?_⟩
    rw [show c + (j + n - c) = j + n by omega, Nat.add_mod_right, Nat.mod_eq_of_lt hj]

/-- In Idle a scheduler that names no device leaves the block settled: its search has come past every slot. -/
theorem State.Inv.settled {s : State} (hi : s.Inv) (hf : s.fsm = .idle) (hs : s.scheduled = none) : s.Settled := by
  refine ⟨hf, fun j hj hmay => ?_⟩
  have hreg : 0 < s.regCount := Nat.zero_lt_of_lt hj
  obtain ⟨k, hk, hslot⟩ := exists_cyclic_step (hi.cursor_lt hreg) hj
  have hmem : k ∈ List.range' 0 s.regCount.toNat := List.mem_range'_1.2 ⟨Nat.zero_le k, by omega⟩
  unfold State.scheduled at hs
  simp only at hs
  split at hs
  next => cases hs
  next hnone => exact List.find?_eq_none.1 hnone k hmem (hslot ▸ (s.eligible_iff j).2 hmay)

/-- Phase S with nothing to start (R198). -/
theorem pollPhases_quiet {s : State} (hf : s.fsm = .idle) (hs : s.scheduled = none) :
    pollPhases s = { state := s, ev := none, timeout := false } := by
  simp only [pollPhases, if_pos hf, schedulePhase, hs]

/-- Settles O26: the POLL looks for a device to start, and there is none. -/
theorem pollLeavesSettledState : Obligations.PollLeavesSettledState :=
  fun _ h => poll_of_phases (pollPhases_quiet h.1 h.scheduled)

end Sys2Proof.Machine
end

section
/-! The reset input. -/

namespace Sys2Proof.Machine

theorem step_of_reset {s : State} {rest : List Event} (h : s.events = .reset :: rest) :
    step s = .next (s.blockReset rest) := by
  simp only [step, h]

/-- Settles O8: the inputs field stays as it was, and `State.blockReset` is the rest of the state written out. -/
theorem resetInputSetsEveryRegister : Obligations.ResetInputSetsEveryRegister :=
  fun s _ h => ⟨s.inputs, step_of_reset h⟩

end Sys2Proof.Machine
end

section
/-! R302's measure: a bound on the POLLs before a state settles, which every POLL of an unsettled state lowers. -/

namespace Sys2Proof.Machine

/-! ## The measure -/

/-- The bus actions for the bytes of a transaction: one for each byte sent, two for each byte read (R302). -/
def Device.dataActions (d : Device) : Nat := if d.masterRead then 2 * d.nread.toNat else d.nsend.toNat

/-- A bound on the bus actions still to come after the outstanding one, in the transaction state `f` with shadow bits
`shadow`. -/
def Device.actionsAfter (d : Device) (f : FsmState) (shadow : BitVec 6) : Nat :=
  match f with
  | .start => d.dataActions + 2
  | .writeAddress => d.dataActions + 1
  | .writeData => d.nsend.toNat - d.wcount.toNat
  | .readData => 2 * (d.nread.toNat - d.rcount.toNat) + if shadow = 0b000001#6 then 0 else 1
  | .idle | .restart | .stop => 0

/-- A bound on the bus actions still to come of the transaction in flight, without the outstanding one. -/
def State.actionsAfter (s : State) : Nat := s.activeDev.actionsAfter s.fsm s.shadow

/-- RETRY_BUDGET × P', the POLLs one bus action can take (R183). -/
def State.perAction (s : State) : Nat := s.params.retryBudget.toNat * s.timer.spacing

/-- The POLLs left to the transaction in flight: those of its outstanding action's timer, and full ones for the rest. -/
def State.flightPolls (s : State) : Nat :=
  if s.busy then s.actionsAfter * s.perAction + s.timer.ticksLeft else 0

/-- The POLLs slot `j` is yet to take, the one that starts it among them, if it is requested. -/
def State.slotPolls (s : State) (j : Nat) : Nat :=
  if s.isRequested j then (s.devAt j).actionBound * s.perAction + 1 else 0

/-- The POLLs for every request still queued. -/
def State.queuedPolls (s : State) : Nat := ((List.range s.regCount.toNat).map s.slotPolls).sum

/-- R302's measure. -/
def State.pollsLeft (s : State) : Nat := s.flightPolls + s.queuedPolls

/-! ## The measure at the start -/

/-- START, the address byte and the end add three actions to those of the bytes. -/
theorem Device.actionBound_eq (d : Device) : d.actionBound = d.dataActions + 3 := by
  unfold Device.actionBound Device.dataActions
  split <;> rfl

theorem Device.dataActions_of_read {d : Device} (h : d.masterRead = true) : d.dataActions = 2 * d.nread.toNat := if_pos h

theorem Device.dataActions_of_write {d : Device} (h : d.nsend ≠ 0) : d.dataActions = d.nsend.toNat :=
  if_neg fun hread => h (d.masterRead_iff.1 hread).1

/-- The outstanding action and those to come are no more than R302's count. -/
theorem Device.actionsAfter_lt {d : Device} {f : FsmState} {shadow : BitVec 6} (h : progressFits f shadow d) :
    d.actionsAfter f shadow < d.actionBound := by
  rw [Device.actionBound_eq]
  cases f with
  | start | writeAddress | idle | restart | stop => simp only [Device.actionsAfter]; omega
  | writeData =>
    have hmore : d.wcount < d.nsend := h
    have hwrites : d.nsend ≠ 0 := (BitVec.pos_iff_ne_zero _).1 (Nat.zero_lt_of_lt hmore)
    rw [Device.dataActions_of_write hwrites]
    simp only [Device.actionsAfter]
    omega
  | readData =>
    rw [Device.dataActions_of_read h.1]
    simp only [Device.actionsAfter]
    split <;> omega

/-- A countdown no longer than the spacing leaves no more ticks than a full one (R181). -/
theorem State.Inv.ticksLeft_le {s : State} (hi : s.Inv) (hf : s.fsm ≠ .idle)
    (hc : s.timer.count.toNat ≤ s.timer.spacing) : s.timer.ticksLeft ≤ s.perAction := by
  have hbudget : s.timer.retryBudget.toNat ≤ s.params.retryBudget.toNat := hi.budgetBounded
  have hleft : 1 ≤ s.timer.retryBudget.toNat := (BitVec.pos_iff_ne_zero _).2 (hi.budgetLeft (hi.activeTimer hf))
  calc s.timer.ticksLeft
      ≤ (s.timer.retryBudget.toNat - 1) * s.timer.spacing + s.timer.spacing :=
        Nat.add_le_add_left (Nat.max_le.2 ⟨hc, s.timer.spacing_pos⟩) _
    _ = s.timer.retryBudget.toNat * s.timer.spacing := by
        rw [← Nat.succ_mul, Nat.succ_eq_add_one, Nat.sub_add_cancel hleft]
    _ ≤ s.perAction := Nat.mul_le_mul_right _ hbudget

/-- The measure is within R302's bound. -/
theorem State.Inv.pollsLeft_le_settleBound {s : State} (hi : s.Inv)
    (hc : s.busy = true → s.timer.count.toNat ≤ s.timer.spacing) : s.pollsLeft ≤ s.settleBound := by
  refine Nat.add_le_add_right ?_ s.queuedPolls
  unfold State.flightPolls
  split
  next hbusy =>
    have hticks := hi.ticksLeft_le (hi.busyIffNotIdle.1 hbusy) (hc hbusy)
    calc s.actionsAfter * s.perAction + s.timer.ticksLeft
        ≤ s.actionsAfter * s.perAction + s.perAction := Nat.add_le_add_left hticks _
      _ = (s.actionsAfter + 1) * s.perAction := (Nat.succ_mul _ _).symm
      _ ≤ s.activeDev.actionBound * s.perAction := Nat.mul_le_mul_right _ (Device.actionsAfter_lt hi.progress)
  next => exact Nat.le_refl 0

/-! ## What a POLL leaves of it -/

/-- A timer just armed has the POLLs of one bus action left. -/
theorem State.Inv.ticksLeft_armed {s : State} (hi : s.Inv) : s.armedTimer.ticksLeft = s.perAction :=
  Timer.ticksLeft_of_loaded hi.armedTimer_ok.2.1 rfl

theorem TransactionMove.perAction_eq {s t : State} (hi : s.Inv) (h : TransactionMove s t) : t.perAction = s.perAction := by
  obtain ⟨hkept, -, hperiod⟩ := h.keepsConfig hi
  rw [State.perAction, State.perAction, Timer.spacing, hkept.params, hperiod, Timer.spacing]

section
variable {s t : State} (hi : s.Inv) (hf : s.fsm ≠ .idle)
include hi hf

/-- A completed action lowers the POLLs left to the transaction by the ticks its timer had left. -/
theorem State.flightPolls_lt_of_armed {d : Device} (htimer : t.timer = s.armedTimer) (hbusy : t.busy = s.busy)
    (hparams : t.params = s.params) (hdev : t.activeDev = d)
    (hless : d.actionsAfter t.fsm t.shadow < s.activeDev.actionsAfter s.fsm s.shadow) : t.flightPolls < s.flightPolls := by
  have hper : t.perAction = s.perAction := by rw [State.perAction, hparams, htimer]; rfl
  have hbusy' := hi.isBusy hf
  rw [State.flightPolls, State.flightPolls, if_pos hbusy', if_pos (hbusy.trans hbusy'), hper, htimer, hi.ticksLeft_armed,
    ← Nat.succ_mul, State.actionsAfter, hdev]
  exact Nat.lt_of_le_of_lt (Nat.mul_le_mul_right _ hless) (Nat.lt_add_of_pos_right s.timer.ticksLeft_pos)

/-- A tick with nothing consumed takes one POLL. -/
theorem State.flightPolls_lt_of_ticked (ht : s.TickSurvives) (htimer : t.timer = s.timer.tick.timer)
    (hbusy : t.busy = s.busy) (hparams : t.params = s.params) (hsame : t.actionsAfter = s.actionsAfter) :
    t.flightPolls < s.flightPolls := by
  have hper : t.perAction = s.perAction := by rw [State.perAction, hparams, htimer, Timer.tick_spacing]; rfl
  have hbusy' := hi.isBusy hf
  have htick := State.ticksLeft_tick hi hf ht
  rw [State.flightPolls, State.flightPolls, if_pos hbusy', if_pos (hbusy.trans hbusy'), hper, htimer, hsame]
  omega

/-- Nothing is left to a transaction that has ended. -/
theorem State.flightPolls_lt_of_ended (hbusy : t.busy = false) : t.flightPolls < s.flightPolls := by
  rw [State.flightPolls, State.flightPolls, if_pos (hi.isBusy hf), if_neg (by rw [hbusy]; nofun)]
  exact Nat.add_pos_right _ s.timer.ticksLeft_pos

/-- The active device's descriptor, just written. -/
theorem State.activeDev_of_set {d : Device} (hactive : t.active = s.active)
    (hdevs : t.devs = s.devs.set s.active.toNat d) : t.activeDev = d := by
  simp only [State.activeDev, State.dev, State.devAt, hactive, hdevs]
  exact getD_set_eq d Device.reset (hi.activeSlot hf)

end

/-! ## The transitions each take one bus action -/

section
variable {d : Device}

theorem Device.actionsAfter_addressRead (hread : d.masterRead = true) (shadow : BitVec 6) :
    d.actionsAfter .readData 0b000001#6 < d.actionsAfter .writeAddress shadow := by
  simp only [Device.actionsAfter, Device.dataActions_of_read hread, if_true]
  omega

theorem Device.actionsAfter_addressWrite (hn : d.nsend ≠ 0) (shadow shadow' : BitVec 6) :
    d.actionsAfter .writeData shadow' < d.actionsAfter .writeAddress shadow := by
  simp only [Device.actionsAfter, Device.dataActions_of_write hn]
  omega

theorem Device.actionsAfter_dataNext (hn : d.wcount + 1 < d.nsend) (hmore : d.wcount < d.nsend)
    (shadow shadow' : BitVec 6) :
    ({ d with wcount := d.wcount + 1 } : Device).actionsAfter .writeData shadow' < d.actionsAfter .writeData shadow := by
  simp only [Device.actionsAfter]
  bv_omega

theorem Device.actionsAfter_dataLast (hmore : d.wcount < d.nsend) (shadow : BitVec 6) :
    0 < d.actionsAfter .writeData shadow :=
  Nat.sub_pos_of_lt hmore

theorem Device.actionsAfter_received (hmore : d.rcount < d.nread) :
    ({ d with rcount := d.rcount + 1 } : Device).actionsAfter .readData 0b000100#6 <
      d.actionsAfter .readData 0b000001#6 := by
  have hcount : (d.rcount + 1).toNat = d.rcount.toNat + 1 := by bv_omega
  have hless : d.rcount.toNat < d.nread.toNat := hmore
  simp only [Device.actionsAfter, hcount, if_true, show ¬ 0b000100#6 = 0b000001#6 by decide, if_false]
  omega

theorem Device.actionsAfter_acked : d.actionsAfter .readData 0b000001#6 < d.actionsAfter .readData 0b000100#6 :=
  Nat.lt_succ_self _

end

/-- Every POLL outside Idle lowers the POLLs left to the transaction. -/
theorem PollMove.flightPolls_lt {s : State} {p : PollResult} (hi : s.Inv) (hf : s.fsm ≠ .idle) (h : PollMove s p)
    (r : Option Word) : ({ p.state with response := r } : State).flightPolls < s.flightPolls := by
  cases h with
  | quiet hidle | start _ hidle | skip _ hidle => exact absurd hidle hf
  | abort | restartDone | stopDone => exact State.flightPolls_lt_of_ended hi hf rfl
  | waits _ ht hb => exact State.flightPolls_lt_of_ticked hi hf ht rfl rfl rfl rfl
  | dataNack hfs ht hk =>
    refine State.flightPolls_lt_of_ticked hi hf ht rfl rfl rfl ?_
    simp only [State.actionsAfter, hfs]
    rfl
  | startDone hfs ht =>
    refine State.flightPolls_lt_of_armed hi hf rfl rfl rfl rfl ?_
    rw [hfs]
    exact Nat.lt_succ_self _
  | addressRead hfs ht hk hn hm =>
    refine State.flightPolls_lt_of_armed hi hf rfl rfl rfl rfl ?_
    rw [hfs]
    exact Device.actionsAfter_addressRead (Device.masterRead_of hn hm) _
  | addressWrite hfs ht hk hn =>
    refine State.flightPolls_lt_of_armed hi hf rfl rfl rfl rfl ?_
    rw [hfs]
    exact Device.actionsAfter_addressWrite ((BitVec.pos_iff_ne_zero _).1 hn) _ _
  | addressRestart hfs | addressStop hfs =>
    refine State.flightPolls_lt_of_armed hi hf rfl rfl rfl rfl ?_
    rw [hfs]
    exact Nat.succ_pos _
  | addressNack hfs ht hk =>
    refine State.flightPolls_lt_of_armed hi hf rfl rfl rfl (State.activeDev_of_set hi hf rfl rfl) ?_
    rw [hfs]
    exact Nat.succ_pos _
  | dataNext hfs ht hk hn =>
    refine State.flightPolls_lt_of_armed hi hf rfl rfl rfl (State.activeDev_of_set hi hf rfl rfl) ?_
    rw [hfs]
    exact Device.actionsAfter_dataNext hn (hi.moreToSend hfs) _ _
  | dataRestart hfs | dataStop hfs =>
    refine State.flightPolls_lt_of_armed hi hf rfl rfl rfl (State.activeDev_of_set hi hf rfl rfl) ?_
    rw [hfs]
    exact Device.actionsAfter_dataLast (hi.moreToSend hfs) _
  | received hfs ht hs =>
    refine State.flightPolls_lt_of_armed hi hf rfl rfl rfl (State.activeDev_of_set hi hf rfl rfl) ?_
    rw [hfs, hs]
    exact Device.actionsAfter_received (hi.moreToRead hfs hs)
  | readNext hfs ht hs hn =>
    refine State.flightPolls_lt_of_armed hi hf rfl rfl rfl rfl ?_
    rw [hfs, hs]
    exact Device.actionsAfter_acked
  | readStop hfs ht hs hn =>
    refine State.flightPolls_lt_of_armed hi hf rfl rfl rfl rfl ?_
    rw [hfs, hs]
    exact Nat.succ_pos _

end Sys2Proof.Machine
end

section
/-! The requests still queued: the transaction in flight leaves them as they are, and the scheduler takes one of them. -/

namespace Sys2Proof.Machine

/-! ## One slot's share -/

theorem State.slotPolls_of_not_requested {s : State} {j : Nat} (h : (s.devAt j).state ≠ .requested) : s.slotPolls j = 0 :=
  if_neg fun hreq => h ((s.isRequested_iff j).1 hreq)

theorem State.slotPolls_of_requested {s : State} {j : Nat} (h : (s.devAt j).state = .requested) :
    s.slotPolls j = (s.devAt j).actionBound * s.perAction + 1 :=
  if_pos ((s.isRequested_iff j).2 h)

theorem State.slotPolls_congr {s t : State} {j : Nat} (hdev : t.devAt j = s.devAt j) (hper : t.perAction = s.perAction) :
    t.slotPolls j = s.slotPolls j := by
  rw [State.slotPolls, State.slotPolls, State.isRequested, State.isRequested, hdev, hper]

/-- A move of the transaction counts again only the slot of the device active after it. -/
theorem TransactionMove.slotPolls_eq {s t : State} (hi : s.Inv) (h : TransactionMove s t) {j : Nat}
    (hj : j ≠ t.active.toNat) : t.slotPolls j = s.slotPolls j :=
  State.slotPolls_congr (h.otherDevices hj) (h.perAction_eq hi)

/-! ## A POLL of the transaction in flight -/

/-- The transaction in flight stays that of its device (R51), which is not requested before or after. -/
theorem TransactionMove.active_not_requested {s t : State} (hi : s.Inv) (hf : s.fsm ≠ .idle) (h : TransactionMove s t) :
    t.active = s.active ∧ (t.devAt t.active.toNat).state ≠ .requested := by
  have hstate := hi.activeInProgress hf
  cases h with
  | responds =>
    refine ⟨rfl, fun hreq => ?_⟩
    cases hstate.symm.trans hreq
  | @inFlight h c d f shadow timer mem out ops r hreg hcursor hconfig hflight hruns hperiod hothers hmem =>
    have hsame : s.active.toNat = h.toNat := by
      by_contra hne
      exact hothers _ (hi.activeHandle hf) hne hstate
    refine ⟨BitVec.eq_of_toNat_eq hsame.symm, fun hreq => ?_⟩
    have hdev : (s.devs.set h.toNat d).getD h.toNat Device.reset = d := getD_set_eq d _ (hi.slot hreg)
    cases hflight.inProgress.symm.trans ((congrArg Device.state hdev).symm.trans hreq)
  | @ended d timer r hf hconfig hidle =>
    refine ⟨rfl, fun hreq => ?_⟩
    have hdev : (s.devs.set s.active.toNat d).getD s.active.toNat Device.reset = d := getD_set_eq d _ (hi.activeSlot hf)
    cases hidle.symm.trans ((congrArg Device.state hdev).symm.trans hreq)

theorem TransactionMove.queuedPolls_eq {s t : State} (hi : s.Inv) (hf : s.fsm ≠ .idle) (h : TransactionMove s t) :
    t.queuedPolls = s.queuedPolls := by
  obtain ⟨hactive, hafter⟩ := h.active_not_requested hi hf
  have hbefore : (s.devAt t.active.toNat).state ≠ .requested := by
    rw [hactive, ← State.dev, hi.activeInProgress hf]
    nofun
  have hslots : t.slotPolls = s.slotPolls := by
    funext j
    by_cases hj : j = t.active.toNat
    · rw [hj, State.slotPolls_of_not_requested hafter, State.slotPolls_of_not_requested hbefore]
    · exact h.slotPolls_eq hi hj
  rw [State.queuedPolls, State.queuedPolls, (h.keepsConfig hi).2.1, hslots]

/-! ## A POLL that starts a device -/

/-- A sum in which one term has changed. -/
theorem sum_map_range_of_one_changed {f g : Nat → Nat} {n i : Nat} (hi : i < n) (hsame : ∀ j, j ≠ i → g j = f j) :
    ((List.range n).map g).sum + f i = ((List.range n).map f).sum + g i := by
  have hmem : i ∈ List.range n := List.mem_range.2 hi
  have hrest : ((List.range n).erase i).map g = ((List.range n).erase i).map f :=
    List.map_congr_left fun j hj => hsame j (List.nodup_range.mem_erase_iff.1 hj).1
  rw [← List.sum_map_erase f hmem, ← List.sum_map_erase g hmem, hrest]
  omega

/-- The request that became a transaction counts no longer. -/
theorem TransactionMove.queuedPolls_of_started {s t : State} {h : Handle} (hi : s.Inv) (hmove : TransactionMove s t)
    (hreg : h < s.regCount) (hactive : t.active = h) (hbefore : (s.dev h).state = .requested)
    (hafter : (t.dev h).state = .inProgress) :
    t.queuedPolls + ((s.dev h).actionBound * s.perAction + 1) = s.queuedPolls := by
  subst hactive
  have hnow : t.slotPolls t.active.toNat = 0 := State.slotPolls_of_not_requested fun hreq => by
    cases hafter.symm.trans hreq
  have hsum := sum_map_range_of_one_changed (f := s.slotPolls) (g := t.slotPolls) (i := t.active.toNat) hreg
    fun j hj => hmove.slotPolls_eq hi hj
  rw [State.slotPolls_of_requested hbefore, hnow] at hsum
  rw [State.queuedPolls, State.queuedPolls, (hmove.keepsConfig hi).2.1]
  exact hsum

/-- What has just been started has no more POLLs to go than it counted in the queue, without the one that started it. -/
theorem State.pollsLeft_lt_of_started {s t : State} {h : Handle} {d : Device} (hi : s.Inv) (hmove : TransactionMove s t)
    (hs : s.scheduled = some h) (hactive : t.active = h) (hdevs : t.devs = s.devs.set h.toNat d)
    (hstate : d.state = .inProgress) (hbound : d.actionBound = (s.dev h).actionBound) (htimer : t.timer = s.armedTimer)
    (hidle : s.busy = false) : t.pollsLeft < s.pollsLeft := by
  obtain ⟨hreg, heligible⟩ := State.scheduled_spec hs
  have hdev : t.dev h = d := (State.devAt_congr (s := s.setDev h d) hdevs _).trans (s.dev_setDev_same d (hi.slot hreg))
  have hqueue := hmove.queuedPolls_of_started hi hreg hactive ((s.eligible_iff _).1 heligible).1 (hdev ▸ hstate)
  have hflight : t.flightPolls ≤ (s.dev h).actionBound * s.perAction := by
    have hless := Device.actionsAfter_lt (hmove.inv hi).progress
    rw [hactive, hdev, hbound] at hless
    unfold State.flightPolls
    split
    · rw [hmove.perAction_eq hi, htimer, hi.ticksLeft_armed, ← Nat.succ_mul, State.actionsAfter, State.activeDev,
        hactive, hdev]
      exact Nat.mul_le_mul_right _ hless
    · exact Nat.zero_le _
  have hnone : s.flightPolls = 0 := if_neg (by rw [hidle]; nofun)
  rw [State.pollsLeft, State.pollsLeft, hnone]
  omega

/-! ## Every POLL of an unsettled state -/

/-- In Idle the POLL starts the device that the scheduler names (R198). -/
theorem poll_pollsLeft_lt_of_idle {s t : State} (hi : s.Inv) (hs : ¬ s.Settled) (hf : s.fsm = .idle)
    (h : exec .poll s = .next t) : t.pollsLeft < s.pollsLeft := by
  have hmove := poll_move hi h
  cases hj : s.scheduled with
  | none => exact absurd (hi.settled hf hj) hs
  | some j =>
    obtain ⟨r, hexec, -⟩ := poll_of_phases (pollPhases_starts hf hj)
    obtain rfl := Host.Outcome.next.inj (hexec.symm.trans h)
    cases hr : (s.dev j).rspend with
    | false =>
      rw [State.startTransfer_start (s := { s with cursor := j }) hr (hi.inactive hf) (hi.shadowIdle hf)] at hmove ⊢
      exact State.pollsLeft_lt_of_started hi hmove hj rfl rfl rfl rfl rfl (hi.not_busy hf)
    | true =>
      rw [State.startTransfer_skip (s := { s with cursor := j }) hr (hi.inactive hf) (hi.shadowIdle hf)] at hmove ⊢
      exact State.pollsLeft_lt_of_started hi hmove hj rfl rfl rfl rfl rfl (hi.not_busy hf)

/-- Each POLL of a state that is not settled lowers the measure. -/
theorem poll_pollsLeft_lt {s t : State} (hi : s.Inv) (hs : ¬ s.Settled) (h : exec .poll s = .next t) :
    t.pollsLeft < s.pollsLeft := by
  by_cases hf : s.fsm = .idle
  · exact poll_pollsLeft_lt_of_idle hi hs hf h
  · have hmove := poll_move hi h
    obtain ⟨r, p, hp, rfl⟩ := poll_inv hi h
    rw [State.pollsLeft, State.pollsLeft, hmove.queuedPolls_eq hi hf]
    exact Nat.add_lt_add_right (hp.flightPolls_lt hi hf r) _

/-! ## The run -/

/-- A state with no POLLs left to go is settled. -/
theorem State.Inv.pollsLeft_pos {s : State} (hi : s.Inv) (hs : ¬ s.Settled) : 0 < s.pollsLeft := by
  obtain ⟨t, -, hexec, -⟩ := exec_responds .poll s
  exact Nat.zero_lt_of_lt (poll_pollsLeft_lt hi hs hexec)

/-- No command moves the list of coming events. -/
theorem poll_events {s t : State} (hi : s.Inv) (h : exec .poll s = .next t) : t.events = s.events :=
  ((poll_move hi h).keepsConfig hi).1.events

/-- As many POLLs as the measure counts are enough. -/
theorem State.Inv.settles {s : State} {n : Nat} {xs : List PeriphInputs} (hi : s.Inv) (hn : s.pollsLeft ≤ n)
    (hlen : n ≤ xs.length) (he : s.events = xs.map pollEvent) :
    ∃ k ≤ n, ∃ t, Sys2Proof.core.run k s = .next t ∧ t.Settled := by
  induction xs generalizing s n with
  | nil =>
    have hs : s.Settled := by
      by_contra hs
      have hpos := hi.pollsLeft_pos hs
      have hzero : n ≤ 0 := hlen
      omega
    exact ⟨0, Nat.zero_le n, s, rfl, hs⟩
  | cons x xs ih =>
    by_cases hs : s.Settled
    · exact ⟨0, Nat.zero_le n, s, rfl, hs⟩
    · have hi' := hi.openStep x (xs.map pollEvent)
      obtain ⟨t, -, hexec, -⟩ := exec_responds .poll (s.openStep x (xs.map pollEvent))
      have hless : t.pollsLeft < s.pollsLeft :=
        poll_pollsLeft_lt (s := s.openStep x (xs.map pollEvent)) hi' hs hexec
      have hlen' : n ≤ xs.length + 1 := hlen
      obtain ⟨k, hk, u, hrun, hsettled⟩ := ih (n := n - 1) (exec_keeps_inv hi' hexec) (by omega) (by omega)
        (poll_events hi' hexec)
      exact ⟨k + 1, by omega, u, (run_succ ((step_of_poll he).trans hexec) k).trans hrun, hsettled⟩

/-- Settles O60: the measure is within R302's bound. -/
theorem pollOnlyRunSettles : Obligations.PollOnlyRunSettles := fun _ _ hi hc hlen he =>
  hi.settles (hi.pollsLeft_le_settleBound hc) hlen he

end Sys2Proof.Machine
end

section
/-! A transaction under the reference stub (R246): each POLL completes the outstanding action, so each POLL takes one
transition. -/

namespace Sys2Proof.Machine

/-! ## Runs -/

/-- One step more at the end of a run. -/
theorem run_succ_of_run {s t u : State} {n : Nat} (h : Sys2Proof.core.run n s = .next t) (hstep : step t = .next u) :
    Sys2Proof.core.run (n + 1) s = .next u := by
  induction n generalizing s with
  | zero =>
    obtain rfl : s = t := Host.Outcome.next.inj h
    exact run_succ hstep 0
  | succ n ih =>
    obtain ⟨v, hv⟩ := everyCommandResponds.2 s
    rw [run_succ hv] at h ⊢
    exact ih h

/-! ## The POLLs to come -/

/-- The events from POLL `k` on, of POLLs under the stub that receive `bytes`. -/
def stubPolls (bytes : List Byte) (rest : List Event) (k : Nat) : List Event :=
  (bytes.drop k).map (fun b => pollEvent (PeriphInputs.stub b)) ++ rest

theorem stubPolls_cons {bytes : List Byte} {k : Nat} (rest : List Event) (hk : k < bytes.length) :
    stubPolls bytes rest k = pollEvent (PeriphInputs.stub (bytes.getD k 0)) :: stubPolls bytes rest (k + 1) := by
  rw [stubPolls, List.drop_eq_getElem_cons hk, ← List.getD_eq_getElem bytes 0 hk]
  rfl

theorem stubPolls_length (bytes : List Byte) (rest : List Event) : stubPolls bytes rest bytes.length = rest := by
  rw [stubPolls, List.drop_length]
  rfl

theorem PeriphInputs.stub_live (b : Byte) (i : Nat) : (PeriphInputs.stub b).live.getLsbD i = false := BitVec.getLsbD_zero

/-! ## A transaction in flight -/

/-- The transaction of device `dev`, its descriptor `d`, is in state `f` with the action `shadow` just issued and with time
for a POLL that completes it; `evs` are the coming events. -/
structure State.Underway (t : State) (dev : Handle) (d : Device) (f : FsmState) (shadow : BitVec 6) (evs : List Event) :
    Prop where
  inv : t.Inv
  fsm : t.fsm = f
  shadow : t.shadow = shadow
  active : t.active = dev
  dev : t.dev dev = d
  timer : t.timer = t.armedTimer
  patience : 2 ≤ t.perAction
  events : t.events = evs

/-- The transaction of device `dev` has ended, its descriptor being `d`. -/
structure State.Done (t : State) (dev : Handle) (d : Device) (evs : List Event) : Prop where
  fsm : t.fsm = .idle
  busy : t.busy = false
  dev : t.dev dev = d
  events : t.events = evs

namespace State.Underway

section
variable {t : State} {dev : Handle} {d : Device} {f : FsmState} {shadow : BitVec 6} {evs : List Event}
  (h : t.Underway dev d f shadow evs)
include h

theorem notIdle (hf : f ≠ .idle) : t.fsm ≠ .idle := h.fsm ▸ hf

theorem activeDev : t.activeDev = d := (congrArg t.dev h.active).trans h.dev

/-- The next of the POLLs to come. -/
theorem head {bytes : List Byte} {rest : List Event} {k : Nat} (hevs : evs = stubPolls bytes rest k)
    (hk : k < bytes.length) :
    t.Underway dev d f shadow (pollEvent (.stub (bytes.getD k 0)) :: stubPolls bytes rest (k + 1)) :=
  stubPolls_cons rest hk ▸ hevs ▸ h

/-- The action was issued with a full countdown, of two POLLs at least. -/
theorem survives (hf : f ≠ .idle) : t.TickSurvives := by
  rw [State.tickSurvives_iff h.inv (h.notIdle hf), h.timer, h.inv.ticksLeft_armed]
  exact h.patience

/-- A step that issues the next action of the same transaction. -/
theorem issues {u : State} {d' : Device} (hf : f ≠ .idle) (hstep : step t = .next u) (hactive : u.active = t.active)
    (hdevs : u.devs = t.devs.set t.active.toNat d') (htimer : u.timer = t.armedTimer) (hparams : u.params = t.params) :
    u.Underway dev d' u.fsm u.shadow u.events where
  inv := stepKeepsInvariant t u h.inv hstep
  fsm := rfl
  shadow := rfl
  active := hactive.trans h.active
  dev := by
    rw [← h.active, ← hactive]
    exact State.activeDev_of_set h.inv (h.notIdle hf) hactive hdevs
  timer := by rw [State.armedTimer, htimer, hparams]; rfl
  patience := by
    have hsame : u.perAction = t.perAction := by rw [State.perAction, htimer, hparams]; rfl
    exact hsame ▸ h.patience
  events := rfl

/-- Such a step that writes no descriptor. -/
theorem issues_keeping {u : State} (hf : f ≠ .idle) (hstep : step t = .next u) (hactive : u.active = t.active)
    (hdevs : u.devs = t.devs) (htimer : u.timer = t.armedTimer) (hparams : u.params = t.params) :
    u.Underway dev d u.fsm u.shadow u.events := by
  refine h.issues hf hstep hactive ?_ htimer hparams
  rw [hdevs, ← h.activeDev]
  exact (State.devs_set_self (h.inv.activeSlot (h.notIdle hf))).symm

/-- A step that ends the transaction. -/
theorem ends {u : State} {d' : Device} (hf : f ≠ .idle) (hfsm : u.fsm = .idle) (hbusy : u.busy = false)
    (hactive : u.active = t.active) (hdevs : u.devs = t.devs.set t.active.toNat d') : u.Done dev d' u.events where
  fsm := hfsm
  busy := hbusy
  dev := by
    rw [← h.active, ← hactive]
    exact State.activeDev_of_set h.inv (h.notIdle hf) hactive hdevs
  events := rfl

end

/-! ## The transitions under the stub -/

section
variable {t : State} {dev : Handle} {d : Device} {shadow : BitVec 6} {b : Byte} {evs : List Event}

/-- R129. -/
theorem startDone (h : t.Underway dev d .start shadow (pollEvent (.stub b) :: evs)) :
    ∃ u, step t = .next u ∧ u.Underway dev d .writeAddress 0b000010#6 evs ∧ u.mem = t.mem := by
  obtain ⟨r, hexec, -⟩ := startDoneSendsAddress (t.openStep (.stub b) evs) (h.inv.openStep _ _) (h.survives nofun)
    h.fsm (PeriphInputs.stub_live b _)
  have hstep := (step_of_poll h.events).trans hexec
  exact ⟨_, hstep, h.issues_keeping nofun hstep rfl rfl rfl rfl, rfl⟩

/-- R131. -/
theorem addressWrite (h : t.Underway dev d .writeAddress shadow (pollEvent (.stub b) :: evs)) (hn : d.nsend ≠ 0) :
    ∃ u, step t = .next u ∧ u.Underway dev d .writeData 0b000010#6 evs ∧ u.mem = t.mem ∧
      u.periphOut = [⟨.transmit, t.readByte d.wbase⟩] := by
  obtain rfl := h.activeDev
  obtain ⟨r, hexec, -⟩ := addressAckedWriteSendsFirstByte (t.openStep (.stub b) evs) (h.inv.openStep _ _)
    (h.survives nofun) h.fsm (PeriphInputs.stub_live b _) rfl rfl hn
  have hstep := (step_of_poll h.events).trans hexec
  exact ⟨_, hstep, h.issues_keeping nofun hstep rfl rfl rfl rfl, rfl, rfl⟩

/-- R135. -/
theorem dataNext (h : t.Underway dev d .writeData 0b000010#6 (pollEvent (.stub b) :: evs))
    (hn : d.wcount + 1 < d.nsend) :
    ∃ u, step t = .next u ∧ u.Underway dev { d with wcount := d.wcount + 1 } .writeData 0b000010#6 evs ∧
      u.mem = t.mem ∧ u.periphOut = [⟨.transmit, t.readByte (d.wbase + (d.wcount + 1))⟩] := by
  obtain rfl := h.activeDev
  obtain ⟨r, hexec, -⟩ := dataAckedSendsNextByte (t.openStep (.stub b) evs) (h.inv.openStep _ _) (h.survives nofun)
    h.fsm h.shadow (PeriphInputs.stub_live b _) rfl rfl hn
  have hstep := (step_of_poll h.events).trans hexec
  have hnext := h.issues nofun hstep rfl rfl rfl rfl
  exact ⟨_, hstep, { hnext with fsm := h.fsm }, rfl, rfl⟩

/-- R136, R137. -/
theorem dataLast (h : t.Underway dev d .writeData 0b000010#6 (pollEvent (.stub b) :: evs))
    (hn : d.wcount + 1 = d.nsend) :
    ∃ u, step t = .next u ∧ u.mem = t.mem ∧
      (d.genrs = true ∧ u.Underway dev { d with wcount := d.wcount + 1 } .restart 0b010000#6 evs ∨
        d.genrs = false ∧ u.Underway dev { d with wcount := d.wcount + 1 } .stop 0b001000#6 evs) := by
  obtain rfl := h.activeDev
  obtain ⟨r, -, hrestart, hstop⟩ := lastDataAckedEndsWrite (t.openStep (.stub b) evs) (h.inv.openStep _ _)
    (h.survives nofun) h.fsm h.shadow (PeriphInputs.stub_live b _) rfl rfl hn
  obtain hg | hg := Bool.eq_false_or_eq_true t.activeDev.genrs
  · have hstep := (step_of_poll h.events).trans (hrestart hg)
    exact ⟨_, hstep, rfl, .inl ⟨hg, h.issues nofun hstep rfl rfl rfl rfl⟩⟩
  · have hstep := (step_of_poll h.events).trans (hstop hg)
    exact ⟨_, hstep, rfl, .inr ⟨hg, h.issues nofun hstep rfl rfl rfl rfl⟩⟩

/-- R139. -/
theorem restartDone (h : t.Underway dev d .restart shadow (pollEvent (.stub b) :: evs)) :
    ∃ u, step t = .next u ∧ u.mem = t.mem ∧
      u.Done dev { d with rspend := true, genrs := false, finished := true, state := .idle } evs := by
  obtain rfl := h.activeDev
  obtain ⟨r, hexec, -⟩ := restartDoneEndsSegment (t.openStep (.stub b) evs) (h.inv.openStep _ _) (h.survives nofun)
    h.fsm (PeriphInputs.stub_live b _)
  exact ⟨_, (step_of_poll h.events).trans hexec, rfl, h.ends nofun rfl rfl rfl rfl⟩

/-- R140. -/
theorem stopDone (h : t.Underway dev d .stop shadow (pollEvent (.stub b) :: evs)) :
    ∃ u, step t = .next u ∧ u.mem = t.mem ∧ u.Done dev { d with finished := true, state := .idle } evs := by
  obtain rfl := h.activeDev
  obtain ⟨r, hexec, -⟩ := stopDoneFinishesDevice (t.openStep (.stub b) evs) (h.inv.openStep _ _) (h.survives nofun)
    h.fsm (PeriphInputs.stub_live b _)
  exact ⟨_, (step_of_poll h.events).trans hexec, rfl, h.ends nofun rfl rfl rfl rfl⟩

/-- R130. -/
theorem addressRead (h : t.Underway dev d .writeAddress shadow (pollEvent (.stub b) :: evs)) (hn : d.nsend = 0)
    (hm : d.nread ≠ 0) :
    ∃ u, step t = .next u ∧ u.Underway dev d .readData 0b000001#6 evs ∧ u.mem = t.mem := by
  obtain rfl := h.activeDev
  obtain ⟨r, hexec, -⟩ := addressAckedReadEnablesReceiver (t.openStep (.stub b) evs) (h.inv.openStep _ _)
    (h.survives nofun) h.fsm (PeriphInputs.stub_live b _) rfl rfl hn hm
  have hstep := (step_of_poll h.events).trans hexec
  exact ⟨_, hstep, h.issues_keeping nofun hstep rfl rfl rfl rfl, rfl⟩

/-- R141. -/
theorem received (h : t.Underway dev d .readData 0b000001#6 (pollEvent (.stub b) :: evs)) :
    ∃ u, step t = .next u ∧ u.Underway dev { d with rcount := d.rcount + 1 } .readData 0b000100#6 evs ∧
      ∀ a : Half, u.readByte a = if a = d.rbase + d.rcount then b else t.readByte a := by
  obtain rfl := h.activeDev
  obtain ⟨r, m, hexec, hmem, -⟩ := receivedByteIsStoredAndAcked (t.openStep (.stub b) evs) (h.inv.openStep _ _)
    (h.survives nofun) h.fsm h.shadow (PeriphInputs.stub_live b _) rfl
  have hstep := (step_of_poll h.events).trans hexec
  have hnext := h.issues nofun hstep rfl rfl rfl rfl
  exact ⟨_, hstep, { hnext with fsm := h.fsm }, hmem⟩

/-- R142. -/
theorem readNext (h : t.Underway dev d .readData 0b000100#6 (pollEvent (.stub b) :: evs)) (hn : d.rcount < d.nread) :
    ∃ u, step t = .next u ∧ u.Underway dev d .readData 0b000001#6 evs ∧ u.mem = t.mem := by
  obtain rfl := h.activeDev
  obtain ⟨r, -, hexec, -⟩ := ackDoneReceivesNextOrStops (t.openStep (.stub b) evs) (h.inv.openStep _ _)
    (h.survives nofun) h.fsm h.shadow (PeriphInputs.stub_live b _)
  have hstep := (step_of_poll h.events).trans (hexec hn)
  have hnext := h.issues_keeping nofun hstep rfl rfl rfl rfl
  exact ⟨_, hstep, { hnext with fsm := h.fsm }, rfl⟩

/-- R143. -/
theorem readLast (h : t.Underway dev d .readData 0b000100#6 (pollEvent (.stub b) :: evs)) (hn : d.rcount = d.nread) :
    ∃ u, step t = .next u ∧ u.Underway dev d .stop 0b001000#6 evs ∧ u.mem = t.mem := by
  obtain rfl := h.activeDev
  obtain ⟨r, -, -, hexec⟩ := ackDoneReceivesNextOrStops (t.openStep (.stub b) evs) (h.inv.openStep _ _)
    (h.survives nofun) h.fsm h.shadow (PeriphInputs.stub_live b _)
  have hstep := (step_of_poll h.events).trans (hexec hn)
  exact ⟨_, hstep, h.issues_keeping nofun hstep rfl rfl rfl rfl, rfl⟩

end

end State.Underway

end Sys2Proof.Machine
end

section
/-! What a write and a read under the reference stub have in common: BEGIN, the START and the address byte (R298). -/

namespace Sys2Proof.Machine

/-- The descriptor of a device as BEGIN leaves it (R195). -/
def Device.begun (d : Device) (rs : Bool) (nsend nread : Half) : Device :=
  { d with nsend := nsend, nread := nread, genrs := rs, wcount := 0, rcount := 0, finished := false, result := .ok
           state := .inProgress }

/-- BEGIN of a registered device on an idle block, and then POLLs under the stub that receive `bytes`. -/
structure State.StubRun (s : State) (dev : Handle) (rs : Bool) (nsend nread : Half) (bytes : List Byte)
    (rest : List Event) : Prop where
  inv : s.Inv
  notBusy : s.busy = false
  registered : dev < s.regCount
  noHold : (s.dev dev).rspend = false
  patience : 2 ≤ s.perAction
  events : ∃ x, s.events = .command (encode (.beginTransfer dev rs nsend nread)) x :: stubPolls bytes rest 0

namespace State.StubRun
variable {s : State} {dev : Handle} {rs : Bool} {nsend nread : Half} {bytes : List Byte} {rest : List Event}

/-- BEGIN and `n` POLLs take `s` to `t`, and the transaction is in flight there. -/
abbrev Reaches (s : State) (dev : Handle) (bytes : List Byte) (rest : List Event) (n : Nat) (d : Device) (f : FsmState)
    (shadow : BitVec 6) (t : State) : Prop :=
  Sys2Proof.core.run (n + 1) s = .next t ∧ t.Underway dev d f shadow (stubPolls bytes rest n)

/-- R127, by the statement on BEGIN. -/
theorem begun (h : s.StubRun dev rs nsend nread bytes rest) :
    ∃ t, Reaches s dev bytes rest 0 ((s.dev dev).begun rs nsend nread) .start 0b100000#6 t ∧ t.mem = s.mem := by
  obtain ⟨x, he⟩ := h.events
  have hexec := beginIssuesStart (s.openStep x (stubPolls bytes rest 0)) dev rs nsend nread (h.inv.openStep _ _)
    h.registered h.notBusy h.noHold
  have hdecode := decode_encode (.beginTransfer dev rs nsend nread) rfl
  have hstep := (step_of_command he).trans ((congrArg (exec · _) hdecode).trans hexec)
  refine ⟨_, ⟨run_succ hstep 0, ?_⟩, rfl⟩
  exact
    { inv := stepKeepsInvariant s _ h.inv hstep
      fsm := rfl
      shadow := rfl
      active := rfl
      dev := s.dev_setDev_same ((s.dev dev).begun rs nsend nread) (h.inv.slot h.registered)
      timer := rfl
      patience := h.patience
      events := rfl }

/-- R129. -/
theorem addressed (h : s.StubRun dev rs nsend nread bytes rest) (hlen : 0 < bytes.length) :
    ∃ t, Reaches s dev bytes rest 1 ((s.dev dev).begun rs nsend nread) .writeAddress 0b000010#6 t ∧ t.mem = s.mem := by
  obtain ⟨t, ⟨hrun, ht⟩, hmem⟩ := h.begun
  obtain ⟨u, hstep, hu, hkept⟩ := (ht.head rfl hlen).startDone
  exact ⟨u, ⟨run_succ_of_run hrun hstep, hu⟩, hkept.trans hmem⟩

/-- The block is not in Idle where the transaction is in flight. -/
theorem notIdle_of_reaches {n : Nat} {d : Device} {f : FsmState} {shadow : BitVec 6} {t : State}
    (ht : Reaches s dev bytes rest n d f shadow t) (hf : f ≠ .idle) :
    ∃ t, Sys2Proof.core.run (n + 1) s = .next t ∧ t.fsm ≠ .idle :=
  ⟨t, ht.1, ht.2.notIdle hf⟩

/-- Nor up to the address byte. -/
theorem notIdle_first (h : s.StubRun dev rs nsend nread bytes rest) (hlen : 0 < bytes.length) {k : Nat} (hk : k < 2) :
    ∃ t, Sys2Proof.core.run (k + 1) s = .next t ∧ t.fsm ≠ .idle := by
  obtain rfl | rfl : k = 0 ∨ k = 1 := by omega
  · obtain ⟨t, ht, -⟩ := h.begun
    exact notIdle_of_reaches ht nofun
  · obtain ⟨t, ht, -⟩ := h.addressed hlen
    exact notIdle_of_reaches ht nofun

end State.StubRun

end Sys2Proof.Machine
end

section
/-! A write under the reference stub, from BEGIN to the end (R298). -/

namespace Sys2Proof.Machine

namespace State.StubRun
variable {s : State} {dev : Handle} {rs : Bool} {nsend nread : Half} {bytes : List Byte} {rest : List Event}

/-- The descriptor of the transaction with the write cursor at `c`. -/
def sent (s : State) (dev : Handle) (rs : Bool) (nsend nread c : Half) : Device :=
  { (s.dev dev).begun rs nsend nread with wcount := c }

/-- R131, R135: POLL `k + 2` transmits byte `k`. -/
theorem sending (h : s.StubRun dev rs nsend nread bytes rest) (hlen : nsend.toNat + 2 ≤ bytes.length) {k : Nat}
    (hk : k < nsend.toNat) :
    ∃ t, Reaches s dev bytes rest (k + 2) (sent s dev rs nsend nread (BitVec.ofNat 16 k)) .writeData 0b000010#6 t ∧
      t.mem = s.mem ∧ t.periphOut = [⟨.transmit, s.readByte ((s.dev dev).wbase + BitVec.ofNat 16 k)⟩] := by
  induction k with
  | zero =>
    have hn : nsend ≠ 0 := (BitVec.pos_iff_ne_zero _).1 hk
    obtain ⟨t, ⟨hrun, ht⟩, hmem⟩ := h.addressed (by omega)
    obtain ⟨u, hstep, hu, hkept, hout⟩ := (ht.head rfl (by omega)).addressWrite hn
    refine ⟨u, ⟨run_succ_of_run hrun hstep, hu⟩, hkept.trans hmem, ?_⟩
    rw [hout, State.readByte_congr hmem, BitVec.add_zero]
    rfl
  | succ k ih =>
    obtain ⟨t, ⟨hrun, ht⟩, hmem, -⟩ := ih (by omega)
    have hcount : BitVec.ofNat 16 k + 1 = BitVec.ofNat 16 (k + 1) := (BitVec.ofNat_add k 1).symm
    have hmore : BitVec.ofNat 16 k + 1 < nsend := by bv_omega
    obtain ⟨u, hstep, hu, hkept, hout⟩ := (ht.head rfl (by omega)).dataNext hmore
    simp only [sent, hcount] at hu hout
    refine ⟨u, ⟨run_succ_of_run hrun hstep, hu⟩, hkept.trans hmem, ?_⟩
    rw [hout, State.readByte_congr hmem]
    rfl

/-- R136, R137: the POLL after that of the last byte ends the write as the caller asked. -/
theorem writeEnding (h : s.StubRun dev rs nsend nread bytes rest) (hn : nsend ≠ 0)
    (hlen : nsend.toNat + 2 ≤ bytes.length) :
    ∃ t, t.mem = s.mem ∧
      let d := sent s dev rs nsend nread nsend
      (rs = true ∧ Reaches s dev bytes rest (nsend.toNat + 2) d .restart 0b010000#6 t ∨
        rs = false ∧ Reaches s dev bytes rest (nsend.toNat + 2) d .stop 0b001000#6 t) := by
  have hpos : 0 < nsend.toNat := (BitVec.pos_iff_ne_zero _).2 hn
  obtain ⟨k, hk⟩ := Nat.exists_eq_add_one.2 hpos
  obtain ⟨t, ⟨hrun, ht⟩, hmem, -⟩ := h.sending hlen (k := k) (by omega)
  have hlast : BitVec.ofNat 16 k + 1 = nsend := by bv_omega
  obtain ⟨u, hstep, hkept, hend⟩ := (ht.head rfl (by omega)).dataLast hlast
  simp only [sent, hlast] at hend
  refine ⟨u, hkept.trans hmem, ?_⟩
  rw [hk]
  exact hend.imp (fun ⟨hrs, hu⟩ => ⟨hrs, run_succ_of_run hrun hstep, hu⟩)
    (fun ⟨hrs, hu⟩ => ⟨hrs, run_succ_of_run hrun hstep, hu⟩)

/-- R139, R140: the write is done, with the bus held if the caller asked for it. -/
theorem writeDone (h : s.StubRun dev rs nsend nread bytes rest) (hn : nsend ≠ 0)
    (hlen : bytes.length = nsend.toNat + 3) :
    ∃ t, Sys2Proof.core.run (nsend.toNat + 4) s = .next t ∧ t.mem = s.mem ∧
      ∃ d, t.Done dev d rest ∧ d.finished = true ∧ d.result = .ok ∧ d.wcount = nsend ∧ d.rspend = rs := by
  have hall : stubPolls bytes rest (nsend.toNat + 3) = rest := hlen ▸ stubPolls_length bytes rest
  obtain ⟨t, hmem, ⟨rfl, hrun, ht⟩ | ⟨rfl, hrun, ht⟩⟩ := h.writeEnding hn (by omega)
  · obtain ⟨u, hstep, hkept, hdone⟩ := (ht.head rfl (by omega)).restartDone
    exact ⟨u, run_succ_of_run hrun hstep, hkept.trans hmem, _, hall ▸ hdone, rfl, rfl, rfl, rfl⟩
  · obtain ⟨u, hstep, hkept, hdone⟩ := (ht.head rfl (by omega)).stopDone
    refine ⟨u, run_succ_of_run hrun hstep, hkept.trans hmem, _, hall ▸ hdone, rfl, rfl, rfl, ?_⟩
    exact h.noHold

/-- Before its last POLL the write is not back in Idle. -/
theorem write_notIdle (h : s.StubRun dev rs nsend nread bytes rest) (hn : nsend ≠ 0)
    (hlen : bytes.length = nsend.toNat + 3) {k : Nat} (hk : k < nsend.toNat + 3) :
    ∃ t, Sys2Proof.core.run (k + 1) s = .next t ∧ t.fsm ≠ .idle := by
  by_cases hfirst : k < 2
  · exact h.notIdle_first (by omega) hfirst
  · obtain ⟨i, rfl⟩ := Nat.exists_eq_add_of_le' (Nat.le_of_not_lt hfirst)
    by_cases hlast : i < nsend.toNat
    · obtain ⟨t, ht, -⟩ := h.sending (by omega) hlast
      exact notIdle_of_reaches ht nofun
    · obtain rfl : i = nsend.toNat := by omega
      obtain ⟨t, -, ⟨-, ht⟩ | ⟨-, ht⟩⟩ := h.writeEnding hn (by omega)
      · exact notIdle_of_reaches ht nofun
      · exact notIdle_of_reaches ht nofun

end State.StubRun

/-- Settles O58: one POLL for START, one for the address byte, one for each byte sent, and one for the end. -/
theorem writeUnderStubTakesNPlusThreePolls : Obligations.WriteUnderStubTakesNPlusThreePolls := by
  intro s dev rs ns nr x bytes rest hi hbusy hreg hhold hn hpatience hlen he
  have h : s.StubRun dev rs ns nr bytes rest := ⟨hi, hbusy, hreg, hhold, hpatience, x, he⟩
  refine ⟨fun k hk => h.write_notIdle hn hlen hk, fun k hk => ?_, ?_⟩
  · obtain ⟨t, ⟨hrun, -⟩, -, hout⟩ := h.sending (by omega) hk
    exact ⟨t, hrun, hout⟩
  · obtain ⟨t, hrun, hmem, d, ⟨hfsm, hidle, rfl, hevents⟩, hfinished, hresult, hcount, hrs⟩ := h.writeDone hn hlen
    exact ⟨t, hrun, hfsm, hidle, hevents, hfinished, hresult, hcount, hrs, State.readByte_congr hmem⟩

end Sys2Proof.Machine
end

section
/-! A read under the reference stub, from BEGIN to the end (R298). -/

namespace Sys2Proof.Machine

/-! ## The bytes stored -/

/-- From `s` to `t` the first `k` bytes of the buffer at `base` have taken the values `byte`, and no other byte has
changed. -/
structure Stored (s t : State) (base : Half) (byte : Nat → Byte) (k : Nat) : Prop where
  stored : ∀ i < k, t.readByte (base + BitVec.ofNat 16 i) = byte i
  kept : ∀ a : Half, (∀ i < k, a ≠ base + BitVec.ofNat 16 i) → t.readByte a = s.readByte a

namespace Stored
variable {s t u : State} {base : Half} {byte : Nat → Byte} {k : Nat}

theorem zero (h : t.mem = s.mem) : Stored s t base byte 0 := ⟨nofun, fun a _ => State.readByte_congr h a⟩

theorem of_mem_eq (h : Stored s t base byte k) (hmem : u.mem = t.mem) : Stored s u base byte k :=
  ⟨fun i hi => (State.readByte_congr hmem _).trans (h.stored i hi),
    fun a ha => (State.readByte_congr hmem _).trans (h.kept a ha)⟩

/-- The next byte goes to an address of its own: the buffer is no longer than the memory (R66). -/
theorem succ (h : Stored s t base byte k) (hk : k < 2 ^ 16)
    (hwrite : ∀ a : Half, u.readByte a = if a = base + BitVec.ofNat 16 k then byte k else t.readByte a) :
    Stored s u base byte (k + 1) where
  stored := by
    intro i hi
    rw [hwrite]
    by_cases hik : i = k
    · rw [hik, if_pos rfl]
    · have hne : base + BitVec.ofNat 16 i ≠ base + BitVec.ofNat 16 k := by bv_omega
      rw [if_neg hne, h.stored i (by omega)]
  kept := by
    intro a ha
    rw [hwrite, if_neg (ha k (Nat.lt_succ_self k))]
    exact h.kept a fun i hi => ha i (Nat.lt_succ_of_lt hi)

end Stored

/-! ## The run -/

namespace State.StubRun
variable {s : State} {dev : Handle} {rs : Bool} {nread : Half} {bytes : List Byte} {rest : List Event}

/-- The descriptor of the read with the read cursor at `c`. -/
def got (s : State) (dev : Handle) (rs : Bool) (nread c : Half) : Device :=
  { (s.dev dev).begun rs 0 nread with rcount := c }

/-- The first `k` bytes of the read buffer are those of POLLs 3, 5, and so on (R130, R141, R142). -/
abbrev Holds (s : State) (dev : Handle) (bytes : List Byte) (k : Nat) (t : State) : Prop :=
  Stored s t (s.dev dev).rbase (fun i => bytes.getD (2 * i + 2) 0) k

/-- R141: the POLL in which byte `k` arrives. -/
theorem stores {t : State} {k : Nat} (hk : k < nread.toNat) (hlen : 2 * k + 2 < bytes.length)
    (ht : Reaches s dev bytes rest (2 * k + 2) (got s dev rs nread (BitVec.ofNat 16 k)) .readData 0b000001#6 t)
    (hheld : Holds s dev bytes k t) :
    ∃ u, Reaches s dev bytes rest (2 * k + 3) (got s dev rs nread (BitVec.ofNat 16 (k + 1))) .readData 0b000100#6 u ∧
      Holds s dev bytes (k + 1) u := by
  obtain ⟨hrun, ht⟩ := ht
  have hcount : BitVec.ofNat 16 k + 1 = BitVec.ofNat 16 (k + 1) := (BitVec.ofNat_add k 1).symm
  obtain ⟨u, hstep, hu, hwrite⟩ := (ht.head rfl hlen).received
  simp only [got, hcount] at hu
  exact ⟨u, ⟨run_succ_of_run hrun hstep, hu⟩, hheld.succ (hk.trans nread.isLt) hwrite⟩

/-- R130, R142: POLL `2k + 3` is the one in which byte `k` arrives. -/
theorem receiving (h : s.StubRun dev rs 0 nread bytes rest) (hlen : 2 * nread.toNat + 2 ≤ bytes.length) {k : Nat}
    (hk : k < nread.toNat) :
    ∃ t, Reaches s dev bytes rest (2 * k + 2) (got s dev rs nread (BitVec.ofNat 16 k)) .readData 0b000001#6 t ∧
      Holds s dev bytes k t := by
  induction k with
  | zero =>
    have hm : nread ≠ 0 := (BitVec.pos_iff_ne_zero _).1 hk
    obtain ⟨t, ⟨hrun, ht⟩, hmem⟩ := h.addressed (by omega)
    obtain ⟨u, hstep, hu, hkept⟩ := (ht.head rfl (by omega)).addressRead rfl hm
    exact ⟨u, ⟨run_succ_of_run hrun hstep, hu⟩, .zero (hkept.trans hmem)⟩
  | succ k ih =>
    obtain ⟨t, ht, hheld⟩ := ih (by omega)
    obtain ⟨u, ⟨hrun, hu⟩, hheld⟩ := stores (by omega) (by omega) ht hheld
    have hmore : BitVec.ofNat 16 (k + 1) < nread := by bv_omega
    obtain ⟨v, hstep, hv, hkept⟩ := (hu.head rfl (by omega)).readNext hmore
    exact ⟨v, ⟨run_succ_of_run hrun hstep, hv⟩, hheld.of_mem_eq hkept⟩

/-- R141: POLL `2k + 4` is the one in which the acknowledge of byte `k` is done. -/
theorem acking (h : s.StubRun dev rs 0 nread bytes rest) (hlen : 2 * nread.toNat + 2 ≤ bytes.length) {k : Nat}
    (hk : k < nread.toNat) :
    ∃ t, Reaches s dev bytes rest (2 * k + 3) (got s dev rs nread (BitVec.ofNat 16 (k + 1))) .readData 0b000100#6 t ∧
      Holds s dev bytes (k + 1) t := by
  obtain ⟨t, ht, hheld⟩ := h.receiving hlen hk
  exact stores hk (by omega) ht hheld

/-- R143: after the last acknowledge the STOP. -/
theorem readEnding (h : s.StubRun dev rs 0 nread bytes rest) (hm : nread ≠ 0)
    (hlen : 2 * nread.toNat + 2 ≤ bytes.length) :
    ∃ t, Reaches s dev bytes rest (2 * nread.toNat + 2) (got s dev rs nread nread) .stop 0b001000#6 t ∧
      Holds s dev bytes nread.toNat t := by
  have hpos : 0 < nread.toNat := (BitVec.pos_iff_ne_zero _).2 hm
  obtain ⟨k, hk⟩ := Nat.exists_eq_add_one.2 hpos
  obtain ⟨t, ⟨hrun, ht⟩, hheld⟩ := h.acking hlen (k := k) (by omega)
  have hall : BitVec.ofNat 16 (k + 1) = nread := by bv_omega
  rw [hall] at ht
  obtain ⟨u, hstep, hu, hkept⟩ := (ht.head rfl (by omega)).readLast rfl
  rw [hk]
  exact ⟨u, ⟨run_succ_of_run hrun hstep, hu⟩, hheld.of_mem_eq hkept⟩

/-- R140: the read is done. -/
theorem readDone (h : s.StubRun dev rs 0 nread bytes rest) (hm : nread ≠ 0)
    (hlen : bytes.length = 2 * nread.toNat + 3) :
    ∃ t, Sys2Proof.core.run (2 * nread.toNat + 4) s = .next t ∧ Holds s dev bytes nread.toNat t ∧
      t.Done dev { got s dev rs nread nread with finished := true, state := .idle } rest := by
  have hall : stubPolls bytes rest (2 * nread.toNat + 3) = rest := hlen ▸ stubPolls_length bytes rest
  obtain ⟨t, ⟨hrun, ht⟩, hheld⟩ := h.readEnding hm (by omega)
  obtain ⟨u, hstep, hkept, hdone⟩ := (ht.head rfl (by omega)).stopDone
  exact ⟨u, run_succ_of_run hrun hstep, hheld.of_mem_eq hkept, hall ▸ hdone⟩

/-- Before its last POLL the read is not back in Idle: after the address it receives and acknowledges in turn. -/
theorem read_notIdle (h : s.StubRun dev rs 0 nread bytes rest) (hm : nread ≠ 0)
    (hlen : bytes.length = 2 * nread.toNat + 3) {k : Nat} (hk : k < 2 * nread.toNat + 3) :
    ∃ t, Sys2Proof.core.run (k + 1) s = .next t ∧ t.fsm ≠ .idle := by
  by_cases hfirst : k < 2
  · exact h.notIdle_first (by omega) hfirst
  · obtain ⟨j, rfl⟩ := Nat.exists_eq_add_of_le' (Nat.le_of_not_lt hfirst)
    obtain ⟨i, rfl | rfl⟩ := Nat.even_or_odd' j
    · by_cases hlast : i < nread.toNat
      · obtain ⟨t, ht, -⟩ := h.receiving (by omega) hlast
        exact notIdle_of_reaches ht nofun
      · obtain rfl : i = nread.toNat := by omega
        obtain ⟨t, ht, -⟩ := h.readEnding hm (by omega)
        exact notIdle_of_reaches ht nofun
    · obtain ⟨t, ht, -⟩ := h.acking (k := i) (by omega) (by omega)
      exact notIdle_of_reaches ht nofun

end State.StubRun

/-- Settles O59: one POLL for START, one for the address byte, two for each byte read, and one for the STOP. -/
theorem readUnderStubTakesTwoMPlusThreePolls : Obligations.ReadUnderStubTakesTwoMPlusThreePolls := by
  intro s dev rs nr x bytes rest hi hbusy hreg hhold hm hpatience hlen he
  have h : s.StubRun dev rs 0 nr bytes rest := ⟨hi, hbusy, hreg, hhold, hpatience, x, he⟩
  refine ⟨fun k hk => h.read_notIdle hm hlen hk, ?_⟩
  obtain ⟨t, hrun, hheld, hfsm, hidle, hdev, hevents⟩ := h.readDone hm hlen
  exact ⟨t, hrun, hfsm, hidle, hevents, congrArg Device.finished hdev, congrArg Device.result hdev,
    congrArg Device.rcount hdev, hheld.stored, hheld.kept⟩

end Sys2Proof.Machine
end
